-- ==== Sys2Proof/Word.lean ====
section
/-! DEFINITION. The word types of the decoder block (00_scope.md R9): every value the spec treats as bits. -/

namespace Sys2Proof

/-- A byte, `u8` (00_scope.md R9). -/
abbrev Byte := BitVec 8

/-- A 16-bit address payload, `u16` (00_scope.md R7, R9). -/
abbrev Addr := BitVec 16

/-- A word of the Opcode Table ROM (30_encoding.md R83). -/
abbrev RomWord := BitVec 11

end Sys2Proof
end

