-- ==== Sys2Proof/Syntax.lean ====
section
/-! DEFINITION. The names the rules use (00_scope.md R11): addressing modes, mnemonics, table entries, Args, consumer calls,
and `Instr`, the decoded instructions. -/

namespace Sys2Proof

/-- The 13 addressing modes, in the order of 30_encoding.md R85. -/
inductive Mode where
  | implied
  | accumulator
  | immediate
  | zeroPage
  | zeroPageX
  | zeroPageY
  | absolute
  | absoluteX
  | absoluteY
  | indirect
  | indexedIndirect
  | indirectIndexed
  | relative
deriving DecidableEq, Repr, Inhabited

/-- The 56 mnemonics, in the order of 30_encoding.md R86, spelled as the spec spells them. -/
inductive Mnemonic where
  | ADC | AND | ASL | BCC | BCS | BEQ | BIT | BMI
  | BNE | BPL | BRK | BVC | BVS | CLC | CLD | CLI
  | CLV | CMP | CPX | CPY | DEC | DEX | DEY | EOR
  | INC | INX | INY | JMP | JSR | LDA | LDX | LDY
  | LSR | NOP | ORA | PHA | PHP | PLA | PLP | ROL
  | ROR | RTI | RTS | SBC | SEC | SED | SEI | STA
  | STX | STY | TAX | TAY | TSX | TXA | TXS | TYA
deriving DecidableEq, Repr, Inhabited

/-- An Opcode Table entry (00_scope.md R11): Undefined is a kind of entry, not a mode (90_conflicts.md C2). -/
inductive Entry where
  | defined (m : Mnemonic) (mode : Mode)
  | undefined
deriving DecidableEq, Repr

/-- A decoded operand: a mode with its payload (00_scope.md R11, 40_operand_reader.md R125).
The Relative payload is signed and has a type of its own (90_conflicts.md C4). -/
inductive Arg where
  | implied
  | accumulator
  | immediate (v : Byte)
  | zeroPage (v : Byte)
  | zeroPageX (v : Byte)
  | zeroPageY (v : Byte)
  | absolute (a : Addr)
  | absoluteX (a : Addr)
  | absoluteY (a : Addr)
  | indirect (a : Addr)
  | indexedIndirect (v : Byte)
  | indirectIndexed (v : Byte)
  | relative (o : Int8)
deriving DecidableEq, Repr, Inhabited

/-- The mode an Arg is tagged with (40_operand_reader.md R125). -/
def Arg.mode : Arg → Mode
  | .implied => .implied
  | .accumulator => .accumulator
  | .immediate _ => .immediate
  | .zeroPage _ => .zeroPage
  | .zeroPageX _ => .zeroPageX
  | .zeroPageY _ => .zeroPageY
  | .absolute _ => .absolute
  | .absoluteX _ => .absoluteX
  | .absoluteY _ => .absoluteY
  | .indirect _ => .indirect
  | .indexedIndirect _ => .indexedIndirect
  | .indirectIndexed _ => .indirectIndexed
  | .relative _ => .relative

/-- One call of a consumer operation: the mnemonic, and the Arg where the operation takes one
(00_scope.md R10 `Call(m)` and `Call(m, arg)`). -/
structure Call where
  mnem : Mnemonic
  arg : Option Arg
deriving DecidableEq, Repr

/-- A decoded instruction: what the dispatcher is to do with it (41_dispatch.md R142 steps 3 and 5).
One constructor per mnemonic of spec/opcode_table.json; the table's rows of one mnemonic are its operand forms, told apart by the Arg.
The 25 no-operand mnemonics of 30_encoding.md R87 carry nothing, the other 31 carry an Arg. -/
inductive Instr where
  /-- ADC: 43_alu.md R170. -/
  | adc (a : Arg)
  /-- AND: 43_alu.md R172. -/
  | and (a : Arg)
  /-- ASL: 44_rmw.md R180. -/
  | asl (a : Arg)
  /-- BCC: 45_control.md R199. -/
  | bcc (a : Arg)
  /-- BCS: 45_control.md R200. -/
  | bcs (a : Arg)
  /-- BEQ: 45_control.md R202. -/
  | beq (a : Arg)
  /-- BIT: 43_alu.md R178. -/
  | bit (a : Arg)
  /-- BMI: 45_control.md R196. -/
  | bmi (a : Arg)
  /-- BNE: 45_control.md R201. -/
  | bne (a : Arg)
  /-- BPL: 45_control.md R195. -/
  | bpl (a : Arg)
  /-- BRK: 45_control.md R194. -/
  | brk
  /-- BVC: 45_control.md R197. -/
  | bvc (a : Arg)
  /-- BVS: 45_control.md R198. -/
  | bvs (a : Arg)
  /-- CLC: 46_implied.md R224. -/
  | clc
  /-- CLD: 46_implied.md R225. -/
  | cld
  /-- CLI: 46_implied.md R226. -/
  | cli
  /-- CLV: 46_implied.md R227. -/
  | clv
  /-- CMP: 43_alu.md R175. -/
  | cmp (a : Arg)
  /-- CPX: 43_alu.md R176. -/
  | cpx (a : Arg)
  /-- CPY: 43_alu.md R177. -/
  | cpy (a : Arg)
  /-- DEC: 44_rmw.md R185. -/
  | dec (a : Arg)
  /-- DEX: 46_implied.md R212. -/
  | dex
  /-- DEY: 46_implied.md R213. -/
  | dey
  /-- EOR: 43_alu.md R174. -/
  | eor (a : Arg)
  /-- INC: 44_rmw.md R184. -/
  | inc (a : Arg)
  /-- INX: 46_implied.md R210. -/
  | inx
  /-- INY: 46_implied.md R211. -/
  | iny
  /-- JMP: 45_control.md R190. -/
  | jmp (a : Arg)
  /-- JSR: 45_control.md R191. -/
  | jsr (a : Arg)
  /-- LDA: 42_load_store.md R160. -/
  | lda (a : Arg)
  /-- LDX: 42_load_store.md R161. -/
  | ldx (a : Arg)
  /-- LDY: 42_load_store.md R162. -/
  | ldy (a : Arg)
  /-- LSR: 44_rmw.md R181. -/
  | lsr (a : Arg)
  /-- NOP: 46_implied.md R231. -/
  | nop
  /-- ORA: 43_alu.md R173. -/
  | ora (a : Arg)
  /-- PHA: 46_implied.md R220. -/
  | pha
  /-- PHP: 46_implied.md R222. -/
  | php
  /-- PLA: 46_implied.md R221. -/
  | pla
  /-- PLP: 46_implied.md R223. -/
  | plp
  /-- ROL: 44_rmw.md R182. -/
  | rol (a : Arg)
  /-- ROR: 44_rmw.md R183. -/
  | ror (a : Arg)
  /-- RTI: 45_control.md R193. -/
  | rti
  /-- RTS: 45_control.md R192. -/
  | rts
  /-- SBC: 43_alu.md R171. -/
  | sbc (a : Arg)
  /-- SEC: 46_implied.md R228. -/
  | sec
  /-- SED: 46_implied.md R229. -/
  | sed
  /-- SEI: 46_implied.md R230. -/
  | sei
  /-- STA: 42_load_store.md R163. -/
  | sta (a : Arg)
  /-- STX: 42_load_store.md R164. -/
  | stx (a : Arg)
  /-- STY: 42_load_store.md R165. -/
  | sty (a : Arg)
  /-- TAX: 46_implied.md R214. -/
  | tax
  /-- TAY: 46_implied.md R215. -/
  | tay
  /-- TSX: 46_implied.md R219. -/
  | tsx
  /-- TXA: 46_implied.md R216. -/
  | txa
  /-- TXS: 46_implied.md R218. -/
  | txs
  /-- TYA: 46_implied.md R217. -/
  | tya
  /-- An opcode byte the table classifies as Undefined: 47_undefined.md R240. -/
  | undefined (b : Byte)
deriving DecidableEq, Repr

end Sys2Proof
end

