-- ==== Sys2Proof/Config.lean ====
section
/-! DEFINITION. What the block leaves to others (00_scope.md R8): the byte source, the consumer's two interfaces, its result
type, and the values the spec leaves free. None of the constants here has a body: no proof can see what they are. -/

namespace Sys2Proof

/-- The one error a consumer signals by contract (40_operand_reader.md R127, 60_exceptions.md R253). -/
inductive ConsumerError where
  | unsupportedAddressingMode
deriving DecidableEq, Repr, Inhabited

/-- The Instruction-Interpreter: a total record of 56 operations with no defaults (40_operand_reader.md R128), 25 without an
Arg and 31 with one (92_eei_decisions.md D19). -/
structure InstrInterpreter (Out : Type) where
  adc : Arg → Out
  and : Arg → Out
  asl : Arg → Out
  bcc : Arg → Out
  bcs : Arg → Out
  beq : Arg → Out
  bit : Arg → Out
  bmi : Arg → Out
  bne : Arg → Out
  bpl : Arg → Out
  brk : Out
  bvc : Arg → Out
  bvs : Arg → Out
  clc : Out
  cld : Out
  cli : Out
  clv : Out
  cmp : Arg → Out
  cpx : Arg → Out
  cpy : Arg → Out
  dec : Arg → Out
  dex : Out
  dey : Out
  eor : Arg → Out
  inc : Arg → Out
  inx : Out
  iny : Out
  jmp : Arg → Out
  jsr : Arg → Out
  lda : Arg → Out
  ldx : Arg → Out
  ldy : Arg → Out
  lsr : Arg → Out
  nop : Out
  ora : Arg → Out
  pha : Out
  php : Out
  pla : Out
  plp : Out
  rol : Arg → Out
  ror : Arg → Out
  rti : Out
  rts : Out
  sbc : Arg → Out
  sec : Out
  sed : Out
  sei : Out
  sta : Arg → Out
  stx : Arg → Out
  sty : Arg → Out
  tax : Out
  tay : Out
  tsx : Out
  txa : Out
  txs : Out
  tya : Out
deriving Inhabited

/-- The Arg-Interpreter: 13 mode operations (40_operand_reader.md R126), each with the default of R127. -/
structure ArgInterpreter (Out : Type) where
  implied : Except ConsumerError Out := .error .unsupportedAddressingMode
  accumulator : Except ConsumerError Out := .error .unsupportedAddressingMode
  immediate : Byte → Except ConsumerError Out := fun _ => .error .unsupportedAddressingMode
  zeroPage : Byte → Except ConsumerError Out := fun _ => .error .unsupportedAddressingMode
  zeroPageX : Byte → Except ConsumerError Out := fun _ => .error .unsupportedAddressingMode
  zeroPageY : Byte → Except ConsumerError Out := fun _ => .error .unsupportedAddressingMode
  absolute : Addr → Except ConsumerError Out := fun _ => .error .unsupportedAddressingMode
  absoluteX : Addr → Except ConsumerError Out := fun _ => .error .unsupportedAddressingMode
  absoluteY : Addr → Except ConsumerError Out := fun _ => .error .unsupportedAddressingMode
  indirect : Addr → Except ConsumerError Out := fun _ => .error .unsupportedAddressingMode
  indexedIndirect : Byte → Except ConsumerError Out := fun _ => .error .unsupportedAddressingMode
  indirectIndexed : Byte → Except ConsumerError Out := fun _ => .error .unsupportedAddressingMode
  relative : Int8 → Except ConsumerError Out := fun _ => .error .unsupportedAddressingMode

/-- A consumer, an open parameter of the block (00_scope.md R8; 92_eei_decisions.md D19, D21): its result type `Output`, which
the block never inspects (41_dispatch.md R146), with the operations it offers. -/
inductive Consumer where
  /-- A consumer whose operations answer nothing. -/
  | mute
  /-- Any consumer: its result type; the record of operations it offers after the calls already made to it, oldest first (any
  consumer with state of its own is one such function: log entry 5, safe); and `result` while no dispatch is presented, which
  is any value (93_implementation_defined.md U7), fresh at every step. -/
  | of (Out : Type) (ops : List Call → InstrInterpreter Out) (idle : Nat → Out)
deriving Inhabited

/-- The result type of a consumer. -/
def Consumer.Out : Consumer → Type
  | .mute => Unit
  | .of Out _ _ => Out

/-- The operations a consumer offers after the calls already made to it. -/
def Consumer.ops : (c : Consumer) → List Call → InstrInterpreter c.Out
  | .mute => fun _ => (default : InstrInterpreter Unit)
  | .of _ ops _ => ops

/-- `result` at a moment at which no dispatch is presented. -/
def Consumer.idle : (c : Consumer) → Nat → c.Out
  | .mute => fun _ => ()
  | .of _ _ idle => idle

/-- The consumer at the block's boundary: any one, with any result type (log entry 7, safe). -/
opaque Config.consumer : Consumer

/-- The consumer's result type `Output` (92_eei_decisions.md D21): any type. -/
abbrev Output : Type := Config.consumer.Out

/-- The byte source's answer to one request (10_state.md R40). -/
inductive Answer where
  /-- A byte (R40 (a)). -/
  | byte (b : Byte)
  /-- `StreamExhausted`, this once; the source may produce bytes later (R40 (b), 70_reset_and_hazards.md R287). -/
  | exhausted
  /-- No answer for now: the request stays open for the rest of this step (R40 (c), 20_memory.md R68; log entry 2). -/
  | wait
deriving DecidableEq, Repr, Inhabited

/-- What the byte source does once its listed answers are used up (10_state.md R40, 92_eei_decisions.md D5). -/
inductive SourceEnd where
  /-- Every further request is answered `StreamExhausted`. -/
  | exhausted
  /-- No further request is answered. -/
  | suspended
  /-- It goes on for ever: the next request is answered `Config.source n`, the one after it `Config.source (n + 1)`. -/
  | stream (n : Nat)
deriving DecidableEq, Repr

/-- A byte source, an open parameter of the block (00_scope.md R8, 92_eei_decisions.md D5), as plain data: the answers it
will give, next first, and what it does after them. With no answer listed and `stream` it is any source at all. -/
structure ByteSource where
  answers : List Answer
  thereafter : SourceEnd
deriving DecidableEq, Repr

/-- The answers of a source that never ends: any sequence (log entry 17, safe). -/
opaque Config.source : Nat → Answer

/-- `disp_mnem` while no dispatch is presented: any value (93_implementation_defined.md U7), fresh at every step. -/
opaque Config.idleDispMnem : Nat → BitVec 6
/-- `disp_has_arg` while no dispatch is presented: any value (U7). -/
opaque Config.idleDispHasArg : Nat → Bool
/-- `arg_mode` while no Arg is presented: any value (U7). -/
opaque Config.idleArgMode : Nat → BitVec 4
/-- `arg_payload` while no dispatch is presented: any value (U7). -/
opaque Config.idleArgPayload : Nat → Addr
/-- `err_kind` while no error is presented: any value (U7). -/
opaque Config.idleErrKind : Nat → BitVec 2
/-- `err_byte` while no error is presented: any value (U7). -/
opaque Config.idleErrByte : Nat → Byte

end Sys2Proof
end

