-- ==== Sys2Proof/WellFormed.lean ====
section
/-! DEFINITION. Which instructions the documented table can yield: each family rule's own list of modes, and the 105
Undefined bytes of 47_undefined.md R240. Written from the family files, apart from the tables of Decode.lean. -/

namespace Sys2Proof

/-- The 105 bytes of 47_undefined.md R240, in its order. -/
def undefinedBytes : List Byte :=
  [0x02, 0x03, 0x04, 0x07, 0x0B, 0x0C, 0x0F, 0x12, 0x13, 0x14, 0x17, 0x1A, 0x1B, 0x1C, 0x1F] ++
  [0x22, 0x23, 0x27, 0x2B, 0x2F, 0x32, 0x33, 0x34, 0x37, 0x3A, 0x3B, 0x3C, 0x3F, 0x42, 0x43] ++
  [0x44, 0x47, 0x4B, 0x4F, 0x52, 0x53, 0x54, 0x57, 0x5A, 0x5B, 0x5C, 0x5F, 0x62, 0x63, 0x64] ++
  [0x67, 0x6B, 0x6F, 0x72, 0x73, 0x74, 0x77, 0x7A, 0x7B, 0x7C, 0x7F, 0x80, 0x82, 0x83, 0x87] ++
  [0x89, 0x8B, 0x8F, 0x92, 0x93, 0x97, 0x9B, 0x9C, 0x9E, 0x9F, 0xA3, 0xA7, 0xAB, 0xAF, 0xB2] ++
  [0xB3, 0xB7, 0xBB, 0xBF, 0xC2, 0xC3, 0xC7, 0xCB, 0xCF, 0xD2, 0xD3, 0xD4, 0xD7, 0xDA, 0xDB] ++
  [0xDC, 0xDF, 0xE2, 0xE3, 0xE7, 0xEB, 0xEF, 0xF2, 0xF3, 0xF4, 0xF7, 0xFA, 0xFB, 0xFC, 0xFF]

/-- The instruction is one the documented table yields: the Arg's mode is among those its family rule lists, and an Undefined
byte is one of the 105. A no-operand instruction is always well-formed (30_encoding.md R87). -/
def Instr.wf : Instr → Bool
  | .adc a => [Mode.indexedIndirect, .zeroPage, .immediate, .absolute, .indirectIndexed, .zeroPageX, .absoluteY, .absoluteX].contains a.mode
  | .and a => [Mode.indexedIndirect, .zeroPage, .immediate, .absolute, .indirectIndexed, .zeroPageX, .absoluteY, .absoluteX].contains a.mode
  | .asl a => [Mode.zeroPage, .accumulator, .absolute, .zeroPageX, .absoluteX].contains a.mode
  | .bcc a => [Mode.relative].contains a.mode
  | .bcs a => [Mode.relative].contains a.mode
  | .beq a => [Mode.relative].contains a.mode
  | .bit a => [Mode.zeroPage, .absolute].contains a.mode
  | .bmi a => [Mode.relative].contains a.mode
  | .bne a => [Mode.relative].contains a.mode
  | .bpl a => [Mode.relative].contains a.mode
  | .brk => true
  | .bvc a => [Mode.relative].contains a.mode
  | .bvs a => [Mode.relative].contains a.mode
  | .clc => true
  | .cld => true
  | .cli => true
  | .clv => true
  | .cmp a => [Mode.indexedIndirect, .zeroPage, .immediate, .absolute, .indirectIndexed, .zeroPageX, .absoluteY, .absoluteX].contains a.mode
  | .cpx a => [Mode.immediate, .zeroPage, .absolute].contains a.mode
  | .cpy a => [Mode.immediate, .zeroPage, .absolute].contains a.mode
  | .dec a => [Mode.zeroPage, .absolute, .zeroPageX, .absoluteX].contains a.mode
  | .dex => true
  | .dey => true
  | .eor a => [Mode.indexedIndirect, .zeroPage, .immediate, .absolute, .indirectIndexed, .zeroPageX, .absoluteY, .absoluteX].contains a.mode
  | .inc a => [Mode.zeroPage, .absolute, .zeroPageX, .absoluteX].contains a.mode
  | .inx => true
  | .iny => true
  | .jmp a => [Mode.absolute, .indirect].contains a.mode
  | .jsr a => [Mode.absolute].contains a.mode
  | .lda a => [Mode.indexedIndirect, .zeroPage, .immediate, .absolute, .indirectIndexed, .zeroPageX, .absoluteY, .absoluteX].contains a.mode
  | .ldx a => [Mode.immediate, .zeroPage, .absolute, .zeroPageY, .absoluteY].contains a.mode
  | .ldy a => [Mode.immediate, .zeroPage, .absolute, .zeroPageX, .absoluteX].contains a.mode
  | .lsr a => [Mode.zeroPage, .accumulator, .absolute, .zeroPageX, .absoluteX].contains a.mode
  | .nop => true
  | .ora a => [Mode.indexedIndirect, .zeroPage, .immediate, .absolute, .indirectIndexed, .zeroPageX, .absoluteY, .absoluteX].contains a.mode
  | .pha => true
  | .php => true
  | .pla => true
  | .plp => true
  | .rol a => [Mode.zeroPage, .accumulator, .absolute, .zeroPageX, .absoluteX].contains a.mode
  | .ror a => [Mode.zeroPage, .accumulator, .absolute, .zeroPageX, .absoluteX].contains a.mode
  | .rti => true
  | .rts => true
  | .sbc a => [Mode.indexedIndirect, .zeroPage, .immediate, .absolute, .indirectIndexed, .zeroPageX, .absoluteY, .absoluteX].contains a.mode
  | .sec => true
  | .sed => true
  | .sei => true
  | .sta a => [Mode.indexedIndirect, .zeroPage, .absolute, .indirectIndexed, .zeroPageX, .absoluteY, .absoluteX].contains a.mode
  | .stx a => [Mode.zeroPage, .absolute, .zeroPageY].contains a.mode
  | .sty a => [Mode.zeroPage, .absolute, .zeroPageX].contains a.mode
  | .tax => true
  | .tay => true
  | .tsx => true
  | .txa => true
  | .txs => true
  | .tya => true
  | .undefined b => undefinedBytes.contains b

end Sys2Proof
end

