-- ==== Sys2Proof/Decode.lean ====
section
/-! DEFINITION. The Opcode Table ROM, its lookup, operand assembly, the decoder over byte lists, and the encoder
(30_encoding.md, 41_dispatch.md section 1). The decoder's table is the map of R88, the encoder's is the list of R90. -/

namespace Sys2Proof

/-! ### Indices -/

/-- The mode index (30_encoding.md R85). -/
def Mode.index : Mode → BitVec 4
  | .implied => 0
  | .accumulator => 1
  | .immediate => 2
  | .zeroPage => 3
  | .zeroPageX => 4
  | .zeroPageY => 5
  | .absolute => 6
  | .absoluteX => 7
  | .absoluteY => 8
  | .indirect => 9
  | .indexedIndirect => 10
  | .indirectIndexed => 11
  | .relative => 12

/-- Every mode, in index order. -/
def Mode.all : List Mode :=
  [.implied, .accumulator, .immediate, .zeroPage, .zeroPageX, .zeroPageY, .absolute, .absoluteX, .absoluteY, .indirect,
    .indexedIndirect, .indirectIndexed, .relative]

/-- The mode an index names; 13, 14 and 15 name none (30_encoding.md R84). -/
def Mode.ofIndex (n : BitVec 4) : Option Mode := Mode.all[n.toNat]?

/-- The mnemonic index (30_encoding.md R86). -/
def Mnemonic.index : Mnemonic → BitVec 6
  | .ADC => 0 | .AND => 1 | .ASL => 2 | .BCC => 3
  | .BCS => 4 | .BEQ => 5 | .BIT => 6 | .BMI => 7
  | .BNE => 8 | .BPL => 9 | .BRK => 10 | .BVC => 11
  | .BVS => 12 | .CLC => 13 | .CLD => 14 | .CLI => 15
  | .CLV => 16 | .CMP => 17 | .CPX => 18 | .CPY => 19
  | .DEC => 20 | .DEX => 21 | .DEY => 22 | .EOR => 23
  | .INC => 24 | .INX => 25 | .INY => 26 | .JMP => 27
  | .JSR => 28 | .LDA => 29 | .LDX => 30 | .LDY => 31
  | .LSR => 32 | .NOP => 33 | .ORA => 34 | .PHA => 35
  | .PHP => 36 | .PLA => 37 | .PLP => 38 | .ROL => 39
  | .ROR => 40 | .RTI => 41 | .RTS => 42 | .SBC => 43
  | .SEC => 44 | .SED => 45 | .SEI => 46 | .STA => 47
  | .STX => 48 | .STY => 49 | .TAX => 50 | .TAY => 51
  | .TSX => 52 | .TXA => 53 | .TXS => 54 | .TYA => 55

/-- Every mnemonic, in index order. -/
def Mnemonic.all : List Mnemonic :=
  [.ADC, .AND, .ASL, .BCC, .BCS, .BEQ, .BIT, .BMI, .BNE, .BPL, .BRK, .BVC, .BVS, .CLC,
    .CLD, .CLI, .CLV, .CMP, .CPX, .CPY, .DEC, .DEX, .DEY, .EOR, .INC, .INX, .INY, .JMP,
    .JSR, .LDA, .LDX, .LDY, .LSR, .NOP, .ORA, .PHA, .PHP, .PLA, .PLP, .ROL, .ROR, .RTI,
    .RTS, .SBC, .SEC, .SED, .SEI, .STA, .STX, .STY, .TAX, .TAY, .TSX, .TXA, .TXS, .TYA]

/-- The mnemonic an index names; 56 to 63 name none (30_encoding.md R84). -/
def Mnemonic.ofIndex (n : BitVec 6) : Option Mnemonic := Mnemonic.all[n.toNat]?

/-- Whether the mnemonic is one of the 25 that take no Arg (30_encoding.md R87, 90_conflicts.md C1). -/
def Mnemonic.noOperand : Mnemonic → Bool
  | .BRK | .CLC | .CLD | .CLI | .CLV | .DEX | .DEY | .INX | .INY | .NOP | .PHA | .PHP | .PLA
  | .PLP | .RTI | .RTS | .SEC | .SED | .SEI | .TAX | .TAY | .TSX | .TXA | .TXS | .TYA => true
  | .ADC | .AND | .ASL | .BCC | .BCS | .BEQ | .BIT | .BMI | .BNE | .BPL | .BVC | .BVS | .CMP
  | .CPX | .CPY | .DEC | .EOR | .INC | .JMP | .JSR | .LDA | .LDX | .LDY | .LSR | .ORA | .ROL
  | .ROR | .SBC | .STA | .STX | .STY => false

/-- Operand bytes per mode (30_encoding.md R81). -/
def opLen : Mode → Nat
  | .implied | .accumulator => 0
  | .immediate | .zeroPage | .zeroPageX | .zeroPageY | .indexedIndirect | .indirectIndexed | .relative => 1
  | .absolute | .absoluteX | .absoluteY | .indirect => 2

/-! ### The Opcode Table -/

/-- The ROM word of an entry (30_encoding.md R83): `def`, mnemonic index, mode index; Undefined is 0. -/
def Entry.toWord : Entry → RomWord
  | .defined m mode => 1#1 ++ m.index ++ mode.index
  | .undefined => 0

/-- A Defined cell of the opcode map. -/
def cell (m : Mnemonic) (mode : Mode) : Entry := .defined m mode

/-- A `---` cell of the opcode map. -/
def undef : Entry := .undefined

/-- Row 0x of the opcode map (30_encoding.md R88). -/
def tableRow0 : List Entry :=
  [cell .BRK .implied, cell .ORA .indexedIndirect, undef, undef,
    undef, cell .ORA .zeroPage, cell .ASL .zeroPage, undef,
    cell .PHP .implied, cell .ORA .immediate, cell .ASL .accumulator, undef,
    undef, cell .ORA .absolute, cell .ASL .absolute, undef]

/-- Row 1x of the opcode map (30_encoding.md R88). -/
def tableRow1 : List Entry :=
  [cell .BPL .relative, cell .ORA .indirectIndexed, undef, undef,
    undef, cell .ORA .zeroPageX, cell .ASL .zeroPageX, undef,
    cell .CLC .implied, cell .ORA .absoluteY, undef, undef,
    undef, cell .ORA .absoluteX, cell .ASL .absoluteX, undef]

/-- Row 2x of the opcode map (30_encoding.md R88). -/
def tableRow2 : List Entry :=
  [cell .JSR .absolute, cell .AND .indexedIndirect, undef, undef,
    cell .BIT .zeroPage, cell .AND .zeroPage, cell .ROL .zeroPage, undef,
    cell .PLP .implied, cell .AND .immediate, cell .ROL .accumulator, undef,
    cell .BIT .absolute, cell .AND .absolute, cell .ROL .absolute, undef]

/-- Row 3x of the opcode map (30_encoding.md R88). -/
def tableRow3 : List Entry :=
  [cell .BMI .relative, cell .AND .indirectIndexed, undef, undef,
    undef, cell .AND .zeroPageX, cell .ROL .zeroPageX, undef,
    cell .SEC .implied, cell .AND .absoluteY, undef, undef,
    undef, cell .AND .absoluteX, cell .ROL .absoluteX, undef]

/-- Row 4x of the opcode map (30_encoding.md R88). -/
def tableRow4 : List Entry :=
  [cell .RTI .implied, cell .EOR .indexedIndirect, undef, undef,
    undef, cell .EOR .zeroPage, cell .LSR .zeroPage, undef,
    cell .PHA .implied, cell .EOR .immediate, cell .LSR .accumulator, undef,
    cell .JMP .absolute, cell .EOR .absolute, cell .LSR .absolute, undef]

/-- Row 5x of the opcode map (30_encoding.md R88). -/
def tableRow5 : List Entry :=
  [cell .BVC .relative, cell .EOR .indirectIndexed, undef, undef,
    undef, cell .EOR .zeroPageX, cell .LSR .zeroPageX, undef,
    cell .CLI .implied, cell .EOR .absoluteY, undef, undef,
    undef, cell .EOR .absoluteX, cell .LSR .absoluteX, undef]

/-- Row 6x of the opcode map (30_encoding.md R88). -/
def tableRow6 : List Entry :=
  [cell .RTS .implied, cell .ADC .indexedIndirect, undef, undef,
    undef, cell .ADC .zeroPage, cell .ROR .zeroPage, undef,
    cell .PLA .implied, cell .ADC .immediate, cell .ROR .accumulator, undef,
    cell .JMP .indirect, cell .ADC .absolute, cell .ROR .absolute, undef]

/-- Row 7x of the opcode map (30_encoding.md R88). -/
def tableRow7 : List Entry :=
  [cell .BVS .relative, cell .ADC .indirectIndexed, undef, undef,
    undef, cell .ADC .zeroPageX, cell .ROR .zeroPageX, undef,
    cell .SEI .implied, cell .ADC .absoluteY, undef, undef,
    undef, cell .ADC .absoluteX, cell .ROR .absoluteX, undef]

/-- Row 8x of the opcode map (30_encoding.md R88). -/
def tableRow8 : List Entry :=
  [undef, cell .STA .indexedIndirect, undef, undef,
    cell .STY .zeroPage, cell .STA .zeroPage, cell .STX .zeroPage, undef,
    cell .DEY .implied, undef, cell .TXA .implied, undef,
    cell .STY .absolute, cell .STA .absolute, cell .STX .absolute, undef]

/-- Row 9x of the opcode map (30_encoding.md R88). -/
def tableRow9 : List Entry :=
  [cell .BCC .relative, cell .STA .indirectIndexed, undef, undef,
    cell .STY .zeroPageX, cell .STA .zeroPageX, cell .STX .zeroPageY, undef,
    cell .TYA .implied, cell .STA .absoluteY, cell .TXS .implied, undef,
    undef, cell .STA .absoluteX, undef, undef]

/-- Row Ax of the opcode map (30_encoding.md R88). -/
def tableRowA : List Entry :=
  [cell .LDY .immediate, cell .LDA .indexedIndirect, cell .LDX .immediate, undef,
    cell .LDY .zeroPage, cell .LDA .zeroPage, cell .LDX .zeroPage, undef,
    cell .TAY .implied, cell .LDA .immediate, cell .TAX .implied, undef,
    cell .LDY .absolute, cell .LDA .absolute, cell .LDX .absolute, undef]

/-- Row Bx of the opcode map (30_encoding.md R88). -/
def tableRowB : List Entry :=
  [cell .BCS .relative, cell .LDA .indirectIndexed, undef, undef,
    cell .LDY .zeroPageX, cell .LDA .zeroPageX, cell .LDX .zeroPageY, undef,
    cell .CLV .implied, cell .LDA .absoluteY, cell .TSX .implied, undef,
    cell .LDY .absoluteX, cell .LDA .absoluteX, cell .LDX .absoluteY, undef]

/-- Row Cx of the opcode map (30_encoding.md R88). -/
def tableRowC : List Entry :=
  [cell .CPY .immediate, cell .CMP .indexedIndirect, undef, undef,
    cell .CPY .zeroPage, cell .CMP .zeroPage, cell .DEC .zeroPage, undef,
    cell .INY .implied, cell .CMP .immediate, cell .DEX .implied, undef,
    cell .CPY .absolute, cell .CMP .absolute, cell .DEC .absolute, undef]

/-- Row Dx of the opcode map (30_encoding.md R88). -/
def tableRowD : List Entry :=
  [cell .BNE .relative, cell .CMP .indirectIndexed, undef, undef,
    undef, cell .CMP .zeroPageX, cell .DEC .zeroPageX, undef,
    cell .CLD .implied, cell .CMP .absoluteY, undef, undef,
    undef, cell .CMP .absoluteX, cell .DEC .absoluteX, undef]

/-- Row Ex of the opcode map (30_encoding.md R88). -/
def tableRowE : List Entry :=
  [cell .CPX .immediate, cell .SBC .indexedIndirect, undef, undef,
    cell .CPX .zeroPage, cell .SBC .zeroPage, cell .INC .zeroPage, undef,
    cell .INX .implied, cell .SBC .immediate, cell .NOP .implied, undef,
    cell .CPX .absolute, cell .SBC .absolute, cell .INC .absolute, undef]

/-- Row Fx of the opcode map (30_encoding.md R88). -/
def tableRowF : List Entry :=
  [cell .BEQ .relative, cell .SBC .indirectIndexed, undef, undef,
    undef, cell .SBC .zeroPageX, cell .INC .zeroPageX, undef,
    cell .SED .implied, cell .SBC .absoluteY, undef, undef,
    undef, cell .SBC .absoluteX, cell .INC .absoluteX, undef]

/-- The Opcode Table, indexed by the opcode byte: high nibble the row, low nibble the column (30_encoding.md R88,
41_dispatch.md R141). -/
def opcodeTable : List Entry :=
  [tableRow0, tableRow1, tableRow2, tableRow3, tableRow4, tableRow5, tableRow6, tableRow7,
    tableRow8, tableRow9, tableRowA, tableRowB, tableRowC, tableRowD, tableRowE, tableRowF].flatten

/-- The Opcode Table in its hardware form, the contents of `ROM[0..255]` (10_state.md R24, R43). -/
def opcodeRom : List RomWord := opcodeTable.map Entry.toWord

/-- The entry a ROM word holds (41_dispatch.md R140): Undefined if `w[10]` is 0, else the named mnemonic and mode.
`none` where an index names nothing, which no word of the fixed table does (93_implementation_defined.md U11). -/
def entryOf (w : RomWord) : Option Entry :=
  if w.getLsbD 10 then
    match Mnemonic.ofIndex (w.extractLsb' 4 6), Mode.ofIndex (w.extractLsb' 0 4) with
    | some m, some mode => some (.defined m mode)
    | _, _ => none
  else some .undefined

/-- `Lookup(b)`: the entry in ROM word `b` (41_dispatch.md R140). `none` only for a corrupt table (U11): a word that names
nothing, or a table shorter than 256 words. -/
def lookup (rom : List RomWord) (b : Byte) : Option Entry := (rom[b.toNat]?).bind entryOf

/-! ### Operand assembly -/

/-- A 2-byte operand is little-endian: `address = hi ++ lo` (20_memory.md R60, 30_encoding.md R93). -/
def addrOf (lo hi : Byte) : Addr := hi ++ lo

/-- A Relative operand byte read as an `i8` (40_operand_reader.md R123). -/
def offsetOf (lo : Byte) : Int8 := Int8.ofBitVec lo

/-- The 2-byte payload, once both bytes are there. -/
def addrOf? (lo hi : Option Byte) : Option Addr :=
  match lo, hi with
  | some l, some h => some (addrOf l h)
  | _, _ => none

/-- The Arg of a mode from the operand bytes (40_operand_reader.md R111 to R123): it reads the bytes the mode has and no
others. `none` where a byte it needs is missing. -/
def argOf (mode : Mode) (lo hi : Option Byte) : Option Arg :=
  match mode with
  | .implied => some .implied
  | .accumulator => some .accumulator
  | .immediate => lo.map .immediate
  | .zeroPage => lo.map .zeroPage
  | .zeroPageX => lo.map .zeroPageX
  | .zeroPageY => lo.map .zeroPageY
  | .absolute => (addrOf? lo hi).map .absolute
  | .absoluteX => (addrOf? lo hi).map .absoluteX
  | .absoluteY => (addrOf? lo hi).map .absoluteY
  | .indirect => (addrOf? lo hi).map .indirect
  | .indexedIndirect => lo.map .indexedIndirect
  | .indirectIndexed => lo.map .indirectIndexed
  | .relative => lo.map fun b => .relative (offsetOf b)

/-! ### The decoder -/

/-- The instruction of a Defined entry and the Arg the reader built: a no-operand mnemonic discards the Arg
(41_dispatch.md R145, 90_conflicts.md C5). -/
def instrOf (m : Mnemonic) (a : Arg) : Instr :=
  match m with
  | .ADC => .adc a
  | .AND => .and a
  | .ASL => .asl a
  | .BCC => .bcc a
  | .BCS => .bcs a
  | .BEQ => .beq a
  | .BIT => .bit a
  | .BMI => .bmi a
  | .BNE => .bne a
  | .BPL => .bpl a
  | .BRK => .brk
  | .BVC => .bvc a
  | .BVS => .bvs a
  | .CLC => .clc
  | .CLD => .cld
  | .CLI => .cli
  | .CLV => .clv
  | .CMP => .cmp a
  | .CPX => .cpx a
  | .CPY => .cpy a
  | .DEC => .dec a
  | .DEX => .dex
  | .DEY => .dey
  | .EOR => .eor a
  | .INC => .inc a
  | .INX => .inx
  | .INY => .iny
  | .JMP => .jmp a
  | .JSR => .jsr a
  | .LDA => .lda a
  | .LDX => .ldx a
  | .LDY => .ldy a
  | .LSR => .lsr a
  | .NOP => .nop
  | .ORA => .ora a
  | .PHA => .pha
  | .PHP => .php
  | .PLA => .pla
  | .PLP => .plp
  | .ROL => .rol a
  | .ROR => .ror a
  | .RTI => .rti
  | .RTS => .rts
  | .SBC => .sbc a
  | .SEC => .sec
  | .SED => .sed
  | .SEI => .sei
  | .STA => .sta a
  | .STX => .stx a
  | .STY => .sty a
  | .TAX => .tax
  | .TAY => .tay
  | .TSX => .tsx
  | .TXA => .txa
  | .TXS => .txs
  | .TYA => .tya

/-- The consumer call an instruction stands for: none for an Undefined opcode (41_dispatch.md R143, R145). -/
def Instr.call : Instr → Option Call
  | .adc a => some ⟨.ADC, some a⟩
  | .and a => some ⟨.AND, some a⟩
  | .asl a => some ⟨.ASL, some a⟩
  | .bcc a => some ⟨.BCC, some a⟩
  | .bcs a => some ⟨.BCS, some a⟩
  | .beq a => some ⟨.BEQ, some a⟩
  | .bit a => some ⟨.BIT, some a⟩
  | .bmi a => some ⟨.BMI, some a⟩
  | .bne a => some ⟨.BNE, some a⟩
  | .bpl a => some ⟨.BPL, some a⟩
  | .brk => some ⟨.BRK, none⟩
  | .bvc a => some ⟨.BVC, some a⟩
  | .bvs a => some ⟨.BVS, some a⟩
  | .clc => some ⟨.CLC, none⟩
  | .cld => some ⟨.CLD, none⟩
  | .cli => some ⟨.CLI, none⟩
  | .clv => some ⟨.CLV, none⟩
  | .cmp a => some ⟨.CMP, some a⟩
  | .cpx a => some ⟨.CPX, some a⟩
  | .cpy a => some ⟨.CPY, some a⟩
  | .dec a => some ⟨.DEC, some a⟩
  | .dex => some ⟨.DEX, none⟩
  | .dey => some ⟨.DEY, none⟩
  | .eor a => some ⟨.EOR, some a⟩
  | .inc a => some ⟨.INC, some a⟩
  | .inx => some ⟨.INX, none⟩
  | .iny => some ⟨.INY, none⟩
  | .jmp a => some ⟨.JMP, some a⟩
  | .jsr a => some ⟨.JSR, some a⟩
  | .lda a => some ⟨.LDA, some a⟩
  | .ldx a => some ⟨.LDX, some a⟩
  | .ldy a => some ⟨.LDY, some a⟩
  | .lsr a => some ⟨.LSR, some a⟩
  | .nop => some ⟨.NOP, none⟩
  | .ora a => some ⟨.ORA, some a⟩
  | .pha => some ⟨.PHA, none⟩
  | .php => some ⟨.PHP, none⟩
  | .pla => some ⟨.PLA, none⟩
  | .plp => some ⟨.PLP, none⟩
  | .rol a => some ⟨.ROL, some a⟩
  | .ror a => some ⟨.ROR, some a⟩
  | .rti => some ⟨.RTI, none⟩
  | .rts => some ⟨.RTS, none⟩
  | .sbc a => some ⟨.SBC, some a⟩
  | .sec => some ⟨.SEC, none⟩
  | .sed => some ⟨.SED, none⟩
  | .sei => some ⟨.SEI, none⟩
  | .sta a => some ⟨.STA, some a⟩
  | .stx a => some ⟨.STX, some a⟩
  | .sty a => some ⟨.STY, some a⟩
  | .tax => some ⟨.TAX, none⟩
  | .tay => some ⟨.TAY, none⟩
  | .tsx => some ⟨.TSX, none⟩
  | .txa => some ⟨.TXA, none⟩
  | .txs => some ⟨.TXS, none⟩
  | .tya => some ⟨.TYA, none⟩
  | .undefined _ => none

/-- The instruction a consumer call stands for. `none` for a call that carries an Arg its mnemonic does not take, or lacks
the one it takes: the block makes no such call (41_dispatch.md R145). -/
def Call.instr (c : Call) : Option Instr :=
  match c.mnem.noOperand, c.arg with
  | true, none => some (instrOf c.mnem .implied)
  | false, some a => some (instrOf c.mnem a)
  | true, some _ => none
  | false, none => none

/-- Why a byte list decodes to no instruction. -/
inductive Reject where
  /-- The bytes end before the instruction does (40_operand_reader.md R124, 41_dispatch.md R142 step 1). -/
  | streamExhausted
  /-- The table's word for the opcode names no entry (93_implementation_defined.md U11); never for `opcodeRom`. -/
  | corruptTable
deriving DecidableEq, Repr

/-- One decode over a list of bytes (41_dispatch.md R142): the instruction and the bytes left over, or why there is none.
An Undefined opcode takes one byte (R143); a Defined one takes `1 + opLen mode` (30_encoding.md R82). -/
def decodeWith (rom : List RomWord) : List Byte → Except Reject (Instr × List Byte)
  | [] => .error .streamExhausted
  | b :: bs =>
    match lookup rom b with
    | none => .error .corruptTable
    | some .undefined => .ok (.undefined b, bs)
    | some (.defined m mode) =>
      match argOf mode bs[0]? bs[1]? with
      | some a => .ok (instrOf m a, bs.drop (opLen mode))
      | none => .error .streamExhausted

/-- One decode by the documented table. -/
def decode (bs : List Byte) : Except Reject (Instr × List Byte) := decodeWith opcodeRom bs

/-! ### The encoder -/

/-- The opcodes of each mnemonic with their modes (30_encoding.md R90), in its order. -/
def Mnemonic.forms : Mnemonic → List (Mode × Byte)
  | .ADC => [(.immediate, 0x69), (.zeroPage, 0x65), (.zeroPageX, 0x75), (.absolute, 0x6D),
    (.absoluteX, 0x7D), (.absoluteY, 0x79), (.indexedIndirect, 0x61), (.indirectIndexed, 0x71)]
  | .AND => [(.immediate, 0x29), (.zeroPage, 0x25), (.zeroPageX, 0x35), (.absolute, 0x2D),
    (.absoluteX, 0x3D), (.absoluteY, 0x39), (.indexedIndirect, 0x21), (.indirectIndexed, 0x31)]
  | .ASL => [(.accumulator, 0x0A), (.zeroPage, 0x06), (.zeroPageX, 0x16), (.absolute, 0x0E),
    (.absoluteX, 0x1E)]
  | .BCC => [(.relative, 0x90)]
  | .BCS => [(.relative, 0xB0)]
  | .BEQ => [(.relative, 0xF0)]
  | .BIT => [(.zeroPage, 0x24), (.absolute, 0x2C)]
  | .BMI => [(.relative, 0x30)]
  | .BNE => [(.relative, 0xD0)]
  | .BPL => [(.relative, 0x10)]
  | .BRK => [(.implied, 0x00)]
  | .BVC => [(.relative, 0x50)]
  | .BVS => [(.relative, 0x70)]
  | .CLC => [(.implied, 0x18)]
  | .CLD => [(.implied, 0xD8)]
  | .CLI => [(.implied, 0x58)]
  | .CLV => [(.implied, 0xB8)]
  | .CMP => [(.immediate, 0xC9), (.zeroPage, 0xC5), (.zeroPageX, 0xD5), (.absolute, 0xCD),
    (.absoluteX, 0xDD), (.absoluteY, 0xD9), (.indexedIndirect, 0xC1), (.indirectIndexed, 0xD1)]
  | .CPX => [(.immediate, 0xE0), (.zeroPage, 0xE4), (.absolute, 0xEC)]
  | .CPY => [(.immediate, 0xC0), (.zeroPage, 0xC4), (.absolute, 0xCC)]
  | .DEC => [(.zeroPage, 0xC6), (.zeroPageX, 0xD6), (.absolute, 0xCE), (.absoluteX, 0xDE)]
  | .DEX => [(.implied, 0xCA)]
  | .DEY => [(.implied, 0x88)]
  | .EOR => [(.immediate, 0x49), (.zeroPage, 0x45), (.zeroPageX, 0x55), (.absolute, 0x4D),
    (.absoluteX, 0x5D), (.absoluteY, 0x59), (.indexedIndirect, 0x41), (.indirectIndexed, 0x51)]
  | .INC => [(.zeroPage, 0xE6), (.zeroPageX, 0xF6), (.absolute, 0xEE), (.absoluteX, 0xFE)]
  | .INX => [(.implied, 0xE8)]
  | .INY => [(.implied, 0xC8)]
  | .JMP => [(.absolute, 0x4C), (.indirect, 0x6C)]
  | .JSR => [(.absolute, 0x20)]
  | .LDA => [(.immediate, 0xA9), (.zeroPage, 0xA5), (.zeroPageX, 0xB5), (.absolute, 0xAD),
    (.absoluteX, 0xBD), (.absoluteY, 0xB9), (.indexedIndirect, 0xA1), (.indirectIndexed, 0xB1)]
  | .LDX => [(.immediate, 0xA2), (.zeroPage, 0xA6), (.zeroPageY, 0xB6), (.absolute, 0xAE),
    (.absoluteY, 0xBE)]
  | .LDY => [(.immediate, 0xA0), (.zeroPage, 0xA4), (.zeroPageX, 0xB4), (.absolute, 0xAC),
    (.absoluteX, 0xBC)]
  | .LSR => [(.accumulator, 0x4A), (.zeroPage, 0x46), (.zeroPageX, 0x56), (.absolute, 0x4E),
    (.absoluteX, 0x5E)]
  | .NOP => [(.implied, 0xEA)]
  | .ORA => [(.immediate, 0x09), (.zeroPage, 0x05), (.zeroPageX, 0x15), (.absolute, 0x0D),
    (.absoluteX, 0x1D), (.absoluteY, 0x19), (.indexedIndirect, 0x01), (.indirectIndexed, 0x11)]
  | .PHA => [(.implied, 0x48)]
  | .PHP => [(.implied, 0x08)]
  | .PLA => [(.implied, 0x68)]
  | .PLP => [(.implied, 0x28)]
  | .ROL => [(.accumulator, 0x2A), (.zeroPage, 0x26), (.zeroPageX, 0x36), (.absolute, 0x2E),
    (.absoluteX, 0x3E)]
  | .ROR => [(.accumulator, 0x6A), (.zeroPage, 0x66), (.zeroPageX, 0x76), (.absolute, 0x6E),
    (.absoluteX, 0x7E)]
  | .RTI => [(.implied, 0x40)]
  | .RTS => [(.implied, 0x60)]
  | .SBC => [(.immediate, 0xE9), (.zeroPage, 0xE5), (.zeroPageX, 0xF5), (.absolute, 0xED),
    (.absoluteX, 0xFD), (.absoluteY, 0xF9), (.indexedIndirect, 0xE1), (.indirectIndexed, 0xF1)]
  | .SEC => [(.implied, 0x38)]
  | .SED => [(.implied, 0xF8)]
  | .SEI => [(.implied, 0x78)]
  | .STA => [(.zeroPage, 0x85), (.zeroPageX, 0x95), (.absolute, 0x8D), (.absoluteX, 0x9D),
    (.absoluteY, 0x99), (.indexedIndirect, 0x81), (.indirectIndexed, 0x91)]
  | .STX => [(.zeroPage, 0x86), (.zeroPageY, 0x96), (.absolute, 0x8E)]
  | .STY => [(.zeroPage, 0x84), (.zeroPageX, 0x94), (.absolute, 0x8C)]
  | .TAX => [(.implied, 0xAA)]
  | .TAY => [(.implied, 0xA8)]
  | .TSX => [(.implied, 0xBA)]
  | .TXA => [(.implied, 0x8A)]
  | .TXS => [(.implied, 0x9A)]
  | .TYA => [(.implied, 0x98)]

/-- The opcode byte of a mnemonic in a mode, if the published set has one (30_encoding.md R90). -/
def Mnemonic.opcode (m : Mnemonic) (mode : Mode) : Option Byte := m.forms.lookup mode

/-- The operand bytes of an Arg, low byte first (30_encoding.md R80, 20_memory.md R60). -/
def Arg.bytes : Arg → List Byte
  | .implied | .accumulator => []
  | .immediate v | .zeroPage v | .zeroPageX v | .zeroPageY v | .indexedIndirect v | .indirectIndexed v => [v]
  | .absolute a | .absoluteX a | .absoluteY a | .indirect a => [a.extractLsb' 0 8, a.extractLsb' 8 8]
  | .relative o => [o.toBitVec]

/-- The opcode byte of an instruction; `none` for an instruction the published set lacks. -/
def Instr.opcode (i : Instr) : Option Byte :=
  match i with
  | .undefined b => some b
  | i => i.call.bind fun c => c.mnem.opcode ((c.arg.map Arg.mode).getD .implied)

/-- The operand bytes of an instruction. -/
def Instr.operandBytes (i : Instr) : List Byte := ((i.call.bind Call.arg).map Arg.bytes).getD []

/-- The words of a well-formed instruction: opcode, then operand bytes in stream order (30_encoding.md R80).
An instruction the published set lacks has none. -/
def encode (i : Instr) : List Byte :=
  match i.opcode with
  | some b => b :: i.operandBytes
  | none => []

/-! ### The table's word numbering -/

/-- The three bytes, first byte least significant, of an instruction whose low `nbits` bits are `w`'s and whose other bits
are 0. Three bytes are the longest instruction (00_scope.md R7). -/
def tableBytes (nbits w : Nat) : List Byte :=
  let v := w % 2 ^ nbits
  [BitVec.ofNat 8 v, BitVec.ofNat 8 (v / 2 ^ 8), BitVec.ofNat 8 (v / 2 ^ 16)]

/-- The instruction the decoder reads from an instruction whose bits are `w`, numbered as spec/opcode_table.json numbers
them. -/
def decodeTableWord (nbits w : Nat) : Option Instr :=
  match decode (tableBytes nbits w) with
  | .ok (i, _) => some i
  | .error _ => none

end Sys2Proof
end

