-- ==== Sys2Proof/Machine/State.lean ====
section
/-! DEFINITION. The state of the decoder block and of its boundary, as plain data (10_state.md), the reasons a step can stop,
and the state after reset (10_state.md R43). -/

namespace Sys2Proof.Machine

/-- The sequencer phase (10_state.md R25). -/
inductive Phase where
  | idle | opc | opr1 | opr2 | done
deriving DecidableEq, Repr

/-- The block's own errors (00_scope.md R11, 60_exceptions.md R250). They end a decode; they do not stop the machine. -/
inductive DecodeError where
  | streamExhausted
  | undefinedOpcode (b : Byte)
deriving DecidableEq, Repr

/-- How a decode ended: the consumer call made (10_state.md R34), or a block error (R36). Never both (R36). The consumer's
answer is no state of the block: `result` is an input, driven by the consumer while the call is presented (R37). -/
inductive DecodeOutcome where
  | dispatched (c : Call)
  | failed (e : DecodeError)
deriving DecidableEq, Repr

/-- A pulse of the caller: on the control port (10_state.md R32), or a reset (70_reset_and_hazards.md R280). -/
inductive Pulse where
  | start
  | ack
  | reset
deriving DecidableEq, Repr

/-- The machine: the block's state, then its boundary as data, then the model's own two fields. -/
structure State where
  /-- `ROM[0..255]`, the Opcode Table (10_state.md R24). -/
  rom : List RomWord
  /-- `phase` (10_state.md R25). -/
  phase : Phase
  /-- Latch `opc`; `none` is the spec's "holds no value" (10_state.md R26). -/
  opc : Option Byte
  /-- Latch `lo` (10_state.md R26). -/
  lo : Option Byte
  /-- Latch `hi` (10_state.md R26). -/
  hi : Option Byte
  /-- Latch `ent` (10_state.md R26). -/
  ent : Option Entry
  /-- The outcome on the output ports in DONE (10_state.md R25, R34, R36, R37); `none` when no output is valid. -/
  outcome : Option DecodeOutcome
  /-- The byte source, by the answers it has still to give (10_state.md R33, R40; 92_eei_decisions.md D5). -/
  src : ByteSource
  /-- Another decode drives the same byte source at this time (20_memory.md R73). -/
  srcShared : Bool
  /-- The byte source's cursor: bytes consumed, unbounded (10_state.md R41). -/
  cursor : Nat
  /-- The pulses the caller will give, next first (10_state.md R32). -/
  control : List Pulse
  /-- The consumer calls made so far, oldest first (41_dispatch.md R145). The model's own record, log entry 5. -/
  calls : List Call
  /-- The steps taken so far. The model's own, log entry 6: it makes the free wire values fresh at every step. -/
  moment : Nat
deriving DecidableEq, Repr

/-- Why a step stops. None of these is an error of the block: those are outcomes of a decode. -/
inductive Fault where
  /-- Stuck: the byte source has not answered and the step could do nothing else (10_state.md R40 (c),
  93_implementation_defined.md U4). Raised by `runStep`. Safe: the spec gives the block no step here. -/
  | sourceSuspended
  /-- A latch that nothing wrote in this decode was read (93_implementation_defined.md U6). Raised by `complete` and
  `readMore`, in states no decode reaches. Safe: the model stops. -/
  | unwrittenLatch
  /-- The ROM word of the opcode names no entry (93_implementation_defined.md U11). Raised by `afterOpcode`; the fixed table
  has no such word (30_encoding.md R84). Safe: the model stops. -/
  | corruptTable
deriving DecidableEq, Repr

/-- What the model gives no meaning to. -/
inductive Refusal where
  /-- An instruction without a meaning. Raised by no arm of `exec`. Safe. -/
  | notModelled (mnemonic : String)
  /-- A request to a byte source that another decode drives at the same time (20_memory.md R73,
  93_implementation_defined.md U1). Raised by `fetchThen`. Safe: the spec asks for a refusal. -/
  | sharedSource
deriving DecidableEq, Repr

/-- What one step, or one part of a step, answers. -/
abbrev StepOutcome := Host.Outcome State Fault Refusal

/-- The machine right after reset (10_state.md R43, 70_reset_and_hazards.md R280): IDLE, latches without a value, no output
valid, the Opcode Table in the ROM. The boundary fields are not the block's state; log entries 3 to 6 name their values. -/
def State.reset : State where
  rom := opcodeRom
  phase := .idle
  opc := none
  lo := none
  hi := none
  ent := none
  outcome := none
  src := ⟨[], .suspended⟩
  srcShared := false
  cursor := 0
  control := []
  calls := []
  moment := 0

end Sys2Proof.Machine
end

