-- ==== Sys2Proof/Machine/Ops.lean ====
section
/-! DEFINITION. The named operations over the state: the control port, the byte source, the error entry, and the dispatch of
one consumer call. -/

namespace Sys2Proof

/-- The source's answer to its next request, and the source after it (10_state.md R40). `none`: it gives no answer, and never
will. -/
def ByteSource.next (src : ByteSource) : Option (Answer × ByteSource) :=
  match src.answers with
  | a :: rest => some (a, { src with answers := rest })
  | [] =>
    match src.thereafter with
    | .exhausted => some (.exhausted, src)
    | .suspended => none
    | .stream n => some (Config.source n, { src with thereafter := .stream (n + 1) })

end Sys2Proof

namespace Sys2Proof.Machine

/-! ### Control port and reset -/

/-- One more step taken (log entry 6). -/
def State.nextMoment (s : State) : State := { s with moment := s.moment + 1 }

/-- IDLE with no output valid and no latch holding a value. The ROM and the boundary are untouched. -/
def State.blank (s : State) : State :=
  { s with phase := .idle, opc := none, lo := none, hi := none, ent := none, outcome := none }

/-- Reset (70_reset_and_hazards.md R280, R281): a decode in progress is abandoned with no outcome and no consumer call;
consumed bytes stay consumed and the ROM keeps its contents.
DESIGN CHOICE, log entry 16 (unsafe): in DONE the decode's one call has been made and presented already, and R281, which lists
DONE too, does not say what becomes of it; the outcome is withdrawn and the call stays in the consumer's history. -/
def State.resetBlock (s : State) : State := s.blank

/-- A `start` pulse: in IDLE it begins a decode, elsewhere it is ignored (10_state.md R32). -/
def State.begin (s : State) : State :=
  match s.phase with
  | .idle => { s.blank with phase := .opc }
  | .opc | .opr1 | .opr2 | .done => s

/-- An `ack` pulse: taken in DONE, it returns the block to IDLE (10_state.md R32); the outputs are withdrawn (R28). It is how
the caller leaves an error, too: there is no other return from one (60_exceptions.md R256, R257). -/
def State.acknowledge (s : State) : State :=
  match s.phase with
  | .done => s.blank
  | .idle | .opc | .opr1 | .opr2 => s

/-- Take the caller's next pulse, if there is one. -/
def State.takePulse (s : State) : State :=
  match s.control with
  | [] => s
  | .start :: p => State.begin { s with control := p }
  | .ack :: p => State.acknowledge { s with control := p }
  | .reset :: p => State.resetBlock { s with control := p }

/-! ### Byte source -/

/-- What one `SrcNext` request gets (00_scope.md R10, 10_state.md R40). -/
inductive SrcReply where
  /-- A byte; the cursor has advanced by 1. -/
  | byte (b : Byte) (s : State)
  /-- `StreamExhausted`; the cursor has not moved. -/
  | exhausted (s : State)
  /-- No answer. -/
  | waiting
  /-- Another decode drives the source. -/
  | contended
deriving DecidableEq, Repr

/-- `SrcNext`: request the next byte (00_scope.md R10, 10_state.md R33, R40, R41). -/
def srcNext (s : State) : SrcReply :=
  if s.srcShared then .contended
  else
    match s.src.next with
    | some (.byte b, src) => .byte b { s with src := src, cursor := s.cursor + 1 }
    | some (.exhausted, src) => .exhausted { s with src := src }
    | some (.wait, _) => .waiting
    | none => .waiting

/-- The source lets this step pass without an answer and will answer later: the state once that wait is over. `none` where
the source is not waiting so (10_state.md R40 (c); log entry 2). -/
def afterWait (s : State) : Option State :=
  if s.srcShared then none
  else
    match s.src.next with
    | some (.wait, src) => some { s with src := src }
    | some (.byte _, _) => none
    | some (.exhausted, _) => none
    | none => none

/-! ### How a decode ends -/

/-- Error entry (60_exceptions.md R254, R256), the block's only exception: DONE with the error on the error port. No state is
saved, no mode changes, nothing is delivered to the consumer. -/
def State.raise (e : DecodeError) (s : State) : State := { s with phase := .done, outcome := some (.failed e) }

/-- One consumer call made and presented (41_dispatch.md R145, R146): DONE with the call on the dispatch port, and one more call
in the record. The consumer's answer is on the result port with it (`State.result`, Ports.lean). -/
def State.deliver (c : Call) (s : State) : State :=
  { s with phase := .done, outcome := some (.dispatched c), calls := s.calls ++ [c] }

/-- `Call(m, arg)` (00_scope.md R10, 41_dispatch.md R145). -/
def callWithArg (m : Mnemonic) (a : Arg) (s : State) : StepOutcome := .next (s.deliver ⟨m, some a⟩)

/-- `Call(m)` (00_scope.md R10, 41_dispatch.md R145). -/
def callNoArg (m : Mnemonic) (s : State) : StepOutcome := .next (s.deliver ⟨m, none⟩)

/-! ### Placing an instruction -/

/-- The state whose next step decodes these bytes: IDLE, the documented table in the ROM, the source driven by nobody else
and about to give these bytes, and a `start` as the caller's next pulse (log entry 10). -/
def State.place (bs : List Byte) (s : State) : State :=
  { s.blank with
    rom := opcodeRom
    srcShared := false
    src := { s.src with answers := bs.map .byte ++ s.src.answers }
    control := .start :: s.control }

end Sys2Proof.Machine
end

