-- ==== Sys2Proof/Machine/Alu.lean ====
section
/-! DEFINITION. The arithmetic, logic and compare mnemonics (43_alu.md R170 to R178): the one consumer call each makes. What the call does to a CPU is the
consumer's (00_scope.md R6). -/

namespace Sys2Proof.Machine

/-- ADC (43_alu.md R170): `Call(ADC, arg)`. -/
def execAdc (a : Arg) (s : State) : StepOutcome := callWithArg .ADC a s

/-- SBC (43_alu.md R171): `Call(SBC, arg)`. -/
def execSbc (a : Arg) (s : State) : StepOutcome := callWithArg .SBC a s

/-- AND (43_alu.md R172): `Call(AND, arg)`. -/
def execAnd (a : Arg) (s : State) : StepOutcome := callWithArg .AND a s

/-- ORA (43_alu.md R173): `Call(ORA, arg)`. -/
def execOra (a : Arg) (s : State) : StepOutcome := callWithArg .ORA a s

/-- EOR (43_alu.md R174): `Call(EOR, arg)`. -/
def execEor (a : Arg) (s : State) : StepOutcome := callWithArg .EOR a s

/-- CMP (43_alu.md R175): `Call(CMP, arg)`. -/
def execCmp (a : Arg) (s : State) : StepOutcome := callWithArg .CMP a s

/-- CPX (43_alu.md R176): `Call(CPX, arg)`. -/
def execCpx (a : Arg) (s : State) : StepOutcome := callWithArg .CPX a s

/-- CPY (43_alu.md R177): `Call(CPY, arg)`. -/
def execCpy (a : Arg) (s : State) : StepOutcome := callWithArg .CPY a s

/-- BIT (43_alu.md R178): `Call(BIT, arg)`. -/
def execBit (a : Arg) (s : State) : StepOutcome := callWithArg .BIT a s

end Sys2Proof.Machine
end

