-- ==== Sys2Proof/Machine/Control.lean ====
section
/-! DEFINITION. The control-transfer mnemonics (45_control.md R190 to R202): the one consumer call each makes. What the call does to a CPU is the
consumer's (00_scope.md R6). -/

namespace Sys2Proof.Machine

/-- JMP (45_control.md R190): `Call(JMP, arg)`. An Indirect Arg is the pointer's address, not dereferenced (40_operand_reader.md R120). -/
def execJmp (a : Arg) (s : State) : StepOutcome := callWithArg .JMP a s

/-- JSR (45_control.md R191): `Call(JSR, arg)`. -/
def execJsr (a : Arg) (s : State) : StepOutcome := callWithArg .JSR a s

/-- RTS (45_control.md R192): `Call(RTS)`. -/
def execRts (s : State) : StepOutcome := callNoArg .RTS s

/-- RTI (45_control.md R193): `Call(RTI)`. The block has no interrupt state to restore (60_exceptions.md R258). -/
def execRti (s : State) : StepOutcome := callNoArg .RTI s

/-- BRK (45_control.md R194): `Call(BRK)`. One byte is consumed; no padding byte is skipped (92_eei_decisions.md D18). -/
def execBrk (s : State) : StepOutcome := callNoArg .BRK s

/-- BPL (45_control.md R195): `Call(BPL, arg)`. -/
def execBpl (a : Arg) (s : State) : StepOutcome := callWithArg .BPL a s

/-- BMI (45_control.md R196): `Call(BMI, arg)`. -/
def execBmi (a : Arg) (s : State) : StepOutcome := callWithArg .BMI a s

/-- BVC (45_control.md R197): `Call(BVC, arg)`. -/
def execBvc (a : Arg) (s : State) : StepOutcome := callWithArg .BVC a s

/-- BVS (45_control.md R198): `Call(BVS, arg)`. -/
def execBvs (a : Arg) (s : State) : StepOutcome := callWithArg .BVS a s

/-- BCC (45_control.md R199): `Call(BCC, arg)`. -/
def execBcc (a : Arg) (s : State) : StepOutcome := callWithArg .BCC a s

/-- BCS (45_control.md R200): `Call(BCS, arg)`. -/
def execBcs (a : Arg) (s : State) : StepOutcome := callWithArg .BCS a s

/-- BNE (45_control.md R201): `Call(BNE, arg)`. -/
def execBne (a : Arg) (s : State) : StepOutcome := callWithArg .BNE a s

/-- BEQ (45_control.md R202): `Call(BEQ, arg)`. -/
def execBeq (a : Arg) (s : State) : StepOutcome := callWithArg .BEQ a s

end Sys2Proof.Machine
end

