-- ==== Sys2Proof/Machine/Implied.lean ====
section
/-! DEFINITION. The register, flag and stack no-operand mnemonics (46_implied.md R210 to R231): the one consumer call each makes. What the call does to a CPU is the
consumer's (00_scope.md R6). -/

namespace Sys2Proof.Machine

/-- INX (46_implied.md R210): `Call(INX)`. -/
def execInx (s : State) : StepOutcome := callNoArg .INX s

/-- INY (46_implied.md R211): `Call(INY)`. -/
def execIny (s : State) : StepOutcome := callNoArg .INY s

/-- DEX (46_implied.md R212): `Call(DEX)`. -/
def execDex (s : State) : StepOutcome := callNoArg .DEX s

/-- DEY (46_implied.md R213): `Call(DEY)`. -/
def execDey (s : State) : StepOutcome := callNoArg .DEY s

/-- TAX (46_implied.md R214): `Call(TAX)`. -/
def execTax (s : State) : StepOutcome := callNoArg .TAX s

/-- TAY (46_implied.md R215): `Call(TAY)`. -/
def execTay (s : State) : StepOutcome := callNoArg .TAY s

/-- TXA (46_implied.md R216): `Call(TXA)`. -/
def execTxa (s : State) : StepOutcome := callNoArg .TXA s

/-- TYA (46_implied.md R217): `Call(TYA)`. -/
def execTya (s : State) : StepOutcome := callNoArg .TYA s

/-- TXS (46_implied.md R218): `Call(TXS)`. -/
def execTxs (s : State) : StepOutcome := callNoArg .TXS s

/-- TSX (46_implied.md R219): `Call(TSX)`. -/
def execTsx (s : State) : StepOutcome := callNoArg .TSX s

/-- PHA (46_implied.md R220): `Call(PHA)`. -/
def execPha (s : State) : StepOutcome := callNoArg .PHA s

/-- PLA (46_implied.md R221): `Call(PLA)`. -/
def execPla (s : State) : StepOutcome := callNoArg .PLA s

/-- PHP (46_implied.md R222): `Call(PHP)`. -/
def execPhp (s : State) : StepOutcome := callNoArg .PHP s

/-- PLP (46_implied.md R223): `Call(PLP)`. -/
def execPlp (s : State) : StepOutcome := callNoArg .PLP s

/-- CLC (46_implied.md R224): `Call(CLC)`. -/
def execClc (s : State) : StepOutcome := callNoArg .CLC s

/-- CLD (46_implied.md R225): `Call(CLD)`. -/
def execCld (s : State) : StepOutcome := callNoArg .CLD s

/-- CLI (46_implied.md R226): `Call(CLI)`. -/
def execCli (s : State) : StepOutcome := callNoArg .CLI s

/-- CLV (46_implied.md R227): `Call(CLV)`. -/
def execClv (s : State) : StepOutcome := callNoArg .CLV s

/-- SEC (46_implied.md R228): `Call(SEC)`. -/
def execSec (s : State) : StepOutcome := callNoArg .SEC s

/-- SED (46_implied.md R229): `Call(SED)`. -/
def execSed (s : State) : StepOutcome := callNoArg .SED s

/-- SEI (46_implied.md R230): `Call(SEI)`. -/
def execSei (s : State) : StepOutcome := callNoArg .SEI s

/-- NOP (46_implied.md R231): `Call(NOP)`. -/
def execNop (s : State) : StepOutcome := callNoArg .NOP s

end Sys2Proof.Machine
end

