-- ==== Sys2Proof/Machine/LoadStore.lean ====
section
/-! DEFINITION. The load and store mnemonics (42_load_store.md R160 to R165): the one consumer call each makes. What the call does to a CPU is the
consumer's (00_scope.md R6). -/

namespace Sys2Proof.Machine

/-- LDA (42_load_store.md R160): `Call(LDA, arg)`. -/
def execLda (a : Arg) (s : State) : StepOutcome := callWithArg .LDA a s

/-- LDX (42_load_store.md R161): `Call(LDX, arg)`. -/
def execLdx (a : Arg) (s : State) : StepOutcome := callWithArg .LDX a s

/-- LDY (42_load_store.md R162): `Call(LDY, arg)`. -/
def execLdy (a : Arg) (s : State) : StepOutcome := callWithArg .LDY a s

/-- STA (42_load_store.md R163): `Call(STA, arg)`. STA has no Immediate form: no table row delivers one. -/
def execSta (a : Arg) (s : State) : StepOutcome := callWithArg .STA a s

/-- STX (42_load_store.md R164): `Call(STX, arg)`. -/
def execStx (a : Arg) (s : State) : StepOutcome := callWithArg .STX a s

/-- STY (42_load_store.md R165): `Call(STY, arg)`. -/
def execSty (a : Arg) (s : State) : StepOutcome := callWithArg .STY a s

end Sys2Proof.Machine
end

