-- ==== Sys2Proof/Machine/Rmw.lean ====
section
/-! DEFINITION. The shift, rotate, increment and decrement mnemonics (44_rmw.md R180 to R185): the one consumer call each makes. What the call does to a CPU is the
consumer's (00_scope.md R6). -/

namespace Sys2Proof.Machine

/-- ASL (44_rmw.md R180): `Call(ASL, arg)`. The Accumulator form is called with `Arg(Accumulator)` (40_operand_reader.md R112). -/
def execAsl (a : Arg) (s : State) : StepOutcome := callWithArg .ASL a s

/-- LSR (44_rmw.md R181): `Call(LSR, arg)`. -/
def execLsr (a : Arg) (s : State) : StepOutcome := callWithArg .LSR a s

/-- ROL (44_rmw.md R182): `Call(ROL, arg)`. -/
def execRol (a : Arg) (s : State) : StepOutcome := callWithArg .ROL a s

/-- ROR (44_rmw.md R183): `Call(ROR, arg)`. -/
def execRor (a : Arg) (s : State) : StepOutcome := callWithArg .ROR a s

/-- INC (44_rmw.md R184): `Call(INC, arg)`. -/
def execInc (a : Arg) (s : State) : StepOutcome := callWithArg .INC a s

/-- DEC (44_rmw.md R185): `Call(DEC, arg)`. -/
def execDec (a : Arg) (s : State) : StepOutcome := callWithArg .DEC a s

end Sys2Proof.Machine
end

