-- ==== Sys2Proof/Machine/Undefined.lean ====
section
/-! DEFINITION. The Undefined opcodes (47_undefined.md R240 to R242): a decode error, and no effect besides. -/

namespace Sys2Proof.Machine

/-- UNDEFINED (47_undefined.md R240): `raise UndefinedOpcode(b)`; no further request and no consumer call
(41_dispatch.md R143). -/
def execUndefined (b : Byte) (s : State) : StepOutcome := .next (s.raise (.undefinedOpcode b))

end Sys2Proof.Machine
end

