-- ==== Sys2Proof/Machine/Dispatch.lean ====
section
/-! DEFINITION. The Instruction Dispatcher (41_dispatch.md R142 steps 3 and 5): one arm per constructor of Instr, each one call
of its meaning. -/

namespace Sys2Proof.Machine

/-- What the block does once every byte of the instruction has been consumed. -/
def exec (i : Instr) (s : State) : Host.Outcome State Fault Refusal :=
  match i with
  -- 42_load_store.md
  | .lda a => Sys2Proof.Machine.execLda a s
  | .ldx a => Sys2Proof.Machine.execLdx a s
  | .ldy a => Sys2Proof.Machine.execLdy a s
  | .sta a => Sys2Proof.Machine.execSta a s
  | .stx a => Sys2Proof.Machine.execStx a s
  | .sty a => Sys2Proof.Machine.execSty a s
  -- 43_alu.md
  | .adc a => Sys2Proof.Machine.execAdc a s
  | .sbc a => Sys2Proof.Machine.execSbc a s
  | .and a => Sys2Proof.Machine.execAnd a s
  | .ora a => Sys2Proof.Machine.execOra a s
  | .eor a => Sys2Proof.Machine.execEor a s
  | .cmp a => Sys2Proof.Machine.execCmp a s
  | .cpx a => Sys2Proof.Machine.execCpx a s
  | .cpy a => Sys2Proof.Machine.execCpy a s
  | .bit a => Sys2Proof.Machine.execBit a s
  -- 44_rmw.md
  | .asl a => Sys2Proof.Machine.execAsl a s
  | .lsr a => Sys2Proof.Machine.execLsr a s
  | .rol a => Sys2Proof.Machine.execRol a s
  | .ror a => Sys2Proof.Machine.execRor a s
  | .inc a => Sys2Proof.Machine.execInc a s
  | .dec a => Sys2Proof.Machine.execDec a s
  -- 45_control.md
  | .jmp a => Sys2Proof.Machine.execJmp a s
  | .jsr a => Sys2Proof.Machine.execJsr a s
  | .rts => Sys2Proof.Machine.execRts s
  | .rti => Sys2Proof.Machine.execRti s
  | .brk => Sys2Proof.Machine.execBrk s
  | .bpl a => Sys2Proof.Machine.execBpl a s
  | .bmi a => Sys2Proof.Machine.execBmi a s
  | .bvc a => Sys2Proof.Machine.execBvc a s
  | .bvs a => Sys2Proof.Machine.execBvs a s
  | .bcc a => Sys2Proof.Machine.execBcc a s
  | .bcs a => Sys2Proof.Machine.execBcs a s
  | .bne a => Sys2Proof.Machine.execBne a s
  | .beq a => Sys2Proof.Machine.execBeq a s
  -- 46_implied.md
  | .inx => Sys2Proof.Machine.execInx s
  | .iny => Sys2Proof.Machine.execIny s
  | .dex => Sys2Proof.Machine.execDex s
  | .dey => Sys2Proof.Machine.execDey s
  | .tax => Sys2Proof.Machine.execTax s
  | .tay => Sys2Proof.Machine.execTay s
  | .txa => Sys2Proof.Machine.execTxa s
  | .tya => Sys2Proof.Machine.execTya s
  | .txs => Sys2Proof.Machine.execTxs s
  | .tsx => Sys2Proof.Machine.execTsx s
  | .pha => Sys2Proof.Machine.execPha s
  | .pla => Sys2Proof.Machine.execPla s
  | .php => Sys2Proof.Machine.execPhp s
  | .plp => Sys2Proof.Machine.execPlp s
  | .clc => Sys2Proof.Machine.execClc s
  | .cld => Sys2Proof.Machine.execCld s
  | .cli => Sys2Proof.Machine.execCli s
  | .clv => Sys2Proof.Machine.execClv s
  | .sec => Sys2Proof.Machine.execSec s
  | .sed => Sys2Proof.Machine.execSed s
  | .sei => Sys2Proof.Machine.execSei s
  | .nop => Sys2Proof.Machine.execNop s
  -- 47_undefined.md
  | .undefined b => Sys2Proof.Machine.execUndefined b s

end Sys2Proof.Machine
end

