-- ==== Sys2Proof/Machine/Flags.lean ====
section
/-! DEFINITION. The one-bit status outputs of the ports (10_state.md R32, R33, R34, R36). The block has no status flags and no
flag computation of any kind (10_state.md R22): these wires are all the one-bit status there is. -/

namespace Sys2Proof.Machine

/-- `busy`: high in OPC, OPR1 and OPR2 (10_state.md R32). -/
def State.busy (s : State) : Bool :=
  match s.phase with
  | .opc | .opr1 | .opr2 => true
  | .idle | .done => false

/-- `done`: high in DONE (10_state.md R32). -/
def State.done (s : State) : Bool :=
  match s.phase with
  | .done => true
  | .idle | .opc | .opr1 | .opr2 => false

/-- `src_req`: high in OPC, OPR1 and OPR2 (10_state.md R33). -/
def State.srcReq (s : State) : Bool :=
  match s.phase with
  | .opc | .opr1 | .opr2 => true
  | .idle | .done => false

/-- The call on the dispatch port, if one is presented: in DONE, when no error is raised (10_state.md R34). -/
def State.presentedCall (s : State) : Option Call :=
  match s.done, s.outcome with
  | true, some (.dispatched c) => some c
  | _, _ => none

/-- The error on the error port, if one is raised: in DONE (10_state.md R36). -/
def State.presentedError (s : State) : Option DecodeError :=
  match s.done, s.outcome with
  | true, some (.failed e) => some e
  | _, _ => none

/-- The Arg on the dispatch port, if the presented call carries one (10_state.md R28, R34). -/
def State.presentedArg (s : State) : Option Arg := s.presentedCall.bind Call.arg

/-- `disp_valid` (10_state.md R34). -/
def State.dispValid (s : State) : Bool := s.presentedCall.isSome

/-- `err_valid` (10_state.md R36). -/
def State.errValid (s : State) : Bool := s.presentedError.isSome

end Sys2Proof.Machine
end

