-- ==== Sys2Proof/Machine/Operands.lean ====
section
/-! DEFINITION. The Operand Reader's view of the latches (40_operand_reader.md R110): which bytes are still to come, and the
Arg once they are there. The assembly itself, shared with the decoder over byte lists, is `argOf` in Decode.lean. -/

namespace Sys2Proof.Machine

/-- How many operand bytes the entry's instruction has: none for an Undefined opcode (41_dispatch.md R143), `opLen` for a
Defined one (R144). -/
def operandCount : Entry → Nat
  | .defined _ mode => opLen mode
  | .undefined => 0

/-- `ReadOperand(mode)` once its bytes are latched (40_operand_reader.md R110). `none` where a latch it needs holds no
value. -/
def readOperand (mode : Mode) (s : State) : Option Arg := argOf mode s.lo s.hi

/-- The instruction the latches hold: the Undefined opcode, or the mnemonic with the Arg read in its mode (41_dispatch.md
R142). `none` where a latch it needs holds no value. -/
def latchedInstr (s : State) : Option Instr :=
  match s.ent with
  | some .undefined => s.opc.map .undefined
  | some (.defined m mode) => (readOperand mode s).map (instrOf m)
  | none => none

end Sys2Proof.Machine
end

