-- ==== Sys2Proof/Machine/Sequencer.lean ====
section
/-! DEFINITION. The sequencer: the decode algorithm of 41_dispatch.md R142 as the phases of 10_state.md R25 run it, one byte
request at a time (`tick`), and the step, which takes one pulse of the caller and then decodes as far as the source answers. -/

namespace Sys2Proof.Machine

/-- Request a byte and go on with it; `StreamExhausted` ends the decode where it stands (40_operand_reader.md R124,
41_dispatch.md R142); no answer, no step (10_state.md R40); a shared source is refused (20_memory.md R73). -/
def fetchThen (k : Byte → State → StepOutcome) (s : State) : StepOutcome :=
  match srcNext s with
  | .byte b s' => k b s'
  | .exhausted s' => .next (s'.raise .streamExhausted)
  | .waiting => .fault .sourceSuspended
  | .contended => .refused .sharedSource

/-- Every byte is there: dispatch the instruction the latches hold (41_dispatch.md R142 steps 3 and 5, R149). -/
def complete (s : State) : StepOutcome :=
  match latchedInstr s with
  | some i => exec i s
  | none => .fault .unwrittenLatch

/-- With `k` operand bytes latched, wait in `p` for the next one if the entry's instruction has one more, else dispatch. -/
def readMore (k : Nat) (p : Phase) (s : State) : StepOutcome :=
  match s.ent with
  | some e => if k < operandCount e then .next { s with phase := p } else complete s
  | none => .fault .unwrittenLatch

/-- The opcode byte has arrived: latch it and its entry (41_dispatch.md R142 steps 1 and 2). -/
def afterOpcode (b : Byte) (s : State) : StepOutcome :=
  match lookup s.rom b with
  | some e => readMore 0 .opr1 { s with opc := some b, ent := some e }
  | none => .fault .corruptTable

/-- The first operand byte has arrived (10_state.md R26). -/
def afterLow (b : Byte) (s : State) : StepOutcome := readMore 1 .opr2 { s with lo := some b }

/-- The second operand byte has arrived (10_state.md R26). -/
def afterHigh (b : Byte) (s : State) : StepOutcome := complete { s with hi := some b }

/-- One byte request and what follows from its answer (10_state.md R25, R33). In IDLE and DONE there is no request. -/
def tick (s : State) : StepOutcome :=
  match s.phase with
  | .idle | .done => .next s
  | .opc => fetchThen afterOpcode s
  | .opr1 => fetchThen afterLow s
  | .opr2 => fetchThen afterHigh s

/-- What follows one request made in `s`: go on with `k`, or stop in `s` where the source does not answer. -/
def afterRequest (k : State → StepOutcome) (s : State) : StepOutcome → StepOutcome
  | .next s' => k s'
  | .fault .sourceSuspended => .next s
  | .fault .unwrittenLatch => .fault .unwrittenLatch
  | .fault .corruptTable => .fault .corruptTable
  | .refused r => .refused r

/-- Go on with the decode for at most `n` requests, until it ends or the source does not answer. What has been consumed by
then stays consumed (92_eei_decisions.md D6). -/
def decodeOn : Nat → State → StepOutcome
  | 0, s => .next s
  | n + 1, s =>
    if s.busy then
      match afterWait s with
      | some s' => .next s'
      | none => afterRequest (decodeOn n) s (tick s)
    else .next s

/-- The step of a block that no pulse reaches: in IDLE and DONE it stays as it is (log entry 3); in a decode it goes on, and
where the source gives no answer and never will there is no step (10_state.md R40 (c)). -/
def continueStep (s : State) : StepOutcome :=
  if s.busy then
    match afterWait s with
    | some s' => .next s'
    | none =>
      match tick s with
      | .next s' => decodeOn 2 s'
      | o => o
  else .next s

/-- One step: take the caller's next pulse, if there is one, then decode as far as the source answers; a decode makes at most
3 requests (70_reset_and_hazards.md R290). -/
def runStep (s : State) : StepOutcome :=
  match s.control with
  | _ :: _ => decodeOn 3 s.nextMoment.takePulse
  | [] => continueStep s.nextMoment

end Sys2Proof.Machine
end

