-- ==== Sys2Proof/Machine/Consumer.lean ====
section
/-! DEFINITION. The two dispatches seen from the consumer: which of its 56 operations an instruction selects
(41_dispatch.md R145), and the accept operation of an Arg, which selects one of 13 mode operations (40_operand_reader.md R126). -/

namespace Sys2Proof.Machine

/-- The answer of the one operation an instruction selects, the one named after its mnemonic (41_dispatch.md R145); an
Undefined opcode selects none (R143). -/
def invoke {Out : Type} (c : InstrInterpreter Out) : Instr → Option Out
  | .adc a => some (c.adc a)
  | .and a => some (c.and a)
  | .asl a => some (c.asl a)
  | .bcc a => some (c.bcc a)
  | .bcs a => some (c.bcs a)
  | .beq a => some (c.beq a)
  | .bit a => some (c.bit a)
  | .bmi a => some (c.bmi a)
  | .bne a => some (c.bne a)
  | .bpl a => some (c.bpl a)
  | .brk => some c.brk
  | .bvc a => some (c.bvc a)
  | .bvs a => some (c.bvs a)
  | .clc => some c.clc
  | .cld => some c.cld
  | .cli => some c.cli
  | .clv => some c.clv
  | .cmp a => some (c.cmp a)
  | .cpx a => some (c.cpx a)
  | .cpy a => some (c.cpy a)
  | .dec a => some (c.dec a)
  | .dex => some c.dex
  | .dey => some c.dey
  | .eor a => some (c.eor a)
  | .inc a => some (c.inc a)
  | .inx => some c.inx
  | .iny => some c.iny
  | .jmp a => some (c.jmp a)
  | .jsr a => some (c.jsr a)
  | .lda a => some (c.lda a)
  | .ldx a => some (c.ldx a)
  | .ldy a => some (c.ldy a)
  | .lsr a => some (c.lsr a)
  | .nop => some c.nop
  | .ora a => some (c.ora a)
  | .pha => some c.pha
  | .php => some c.php
  | .pla => some c.pla
  | .plp => some c.plp
  | .rol a => some (c.rol a)
  | .ror a => some (c.ror a)
  | .rti => some c.rti
  | .rts => some c.rts
  | .sbc a => some (c.sbc a)
  | .sec => some c.sec
  | .sed => some c.sed
  | .sei => some c.sei
  | .sta a => some (c.sta a)
  | .stx a => some (c.stx a)
  | .sty a => some (c.sty a)
  | .tax => some c.tax
  | .tay => some c.tay
  | .tsx => some c.tsx
  | .txa => some c.txa
  | .txs => some c.txs
  | .tya => some c.tya
  | .undefined _ => none

/-- The answer to a call: that of the one operation it names (41_dispatch.md R145, R146). -/
def answerTo {Out : Type} (c : InstrInterpreter Out) (call : Call) : Option Out := call.instr.bind (invoke c)

/-- `Accept(arg, ai)`: the answer of the one mode operation the Arg's mode names, applied to its payload
(40_operand_reader.md R126). -/
def accept {Out : Type} (a : Arg) (ai : ArgInterpreter Out) : Except ConsumerError Out :=
  match a with
  | .implied => ai.implied
  | .accumulator => ai.accumulator
  | .immediate v => ai.immediate v
  | .zeroPage v => ai.zeroPage v
  | .zeroPageX v => ai.zeroPageX v
  | .zeroPageY v => ai.zeroPageY v
  | .absolute x => ai.absolute x
  | .absoluteX x => ai.absoluteX x
  | .absoluteY x => ai.absoluteY x
  | .indirect x => ai.indirect x
  | .indexedIndirect v => ai.indexedIndirect v
  | .indirectIndexed v => ai.indirectIndexed v
  | .relative o => ai.relative o

/-- `mode_sel[12:0]` for an Arg: bit `k` alone, for mode index `k` (10_state.md R38, 40_operand_reader.md R126). -/
def strobesFor (a : Arg) : BitVec 13 := 1#13 <<< a.mode.index.toNat

end Sys2Proof.Machine
end

