-- ==== Sys2Proof/Machine/Ports.lean ====
section
/-! DEFINITION. The data outputs of the ports (10_state.md R34 to R38). Outside the phase in which a wire is valid it may have
any value (93_implementation_defined.md U7): there it reads as a free value of Config, a fresh one at every step. -/

namespace Sys2Proof.Machine

/-- The bus encoding of an Arg's payload (10_state.md R35): the address, the byte zero-extended, the raw byte zero-extended
for Relative, 0 for Implied and Accumulator. -/
def busPayload : Arg → Addr
  | .implied | .accumulator => 0
  | .immediate v | .zeroPage v | .zeroPageX v | .zeroPageY v | .indexedIndirect v | .indirectIndexed v => v.setWidth 16
  | .absolute a | .absoluteX a | .absoluteY a | .indirect a => a
  | .relative o => o.toBitVec.setWidth 16

/-- The code of a block error (60_exceptions.md R251, R252). -/
def DecodeError.kind : DecodeError → BitVec 2
  | .streamExhausted => 1
  | .undefinedOpcode _ => 2

/-- The info byte of a block error (60_exceptions.md R251, R252). -/
def DecodeError.info : DecodeError → Byte
  | .streamExhausted => 0
  | .undefinedOpcode b => b

/-- `disp_mnem` (10_state.md R34). -/
def State.dispMnem (s : State) : BitVec 6 :=
  match s.presentedCall with
  | some c => c.mnem.index
  | none => Config.idleDispMnem s.moment

/-- `disp_has_arg` (10_state.md R34). -/
def State.dispHasArg (s : State) : Bool :=
  match s.presentedCall with
  | some c => c.arg.isSome
  | none => Config.idleDispHasArg s.moment

/-- `arg_mode`: meaningful when `disp_has_arg` is 1 (10_state.md R34). -/
def State.argMode (s : State) : BitVec 4 :=
  match s.presentedArg with
  | some a => a.mode.index
  | none => Config.idleArgMode s.moment

/-- `arg_payload` (10_state.md R35). A call without an Arg is an Implied dispatch, whose payload is 0.
DEDUCED, log entry 8. -/
def State.argPayload (s : State) : Addr :=
  match s.presentedCall with
  | some ⟨_, some a⟩ => busPayload a
  | some ⟨_, none⟩ => 0
  | none => Config.idleArgPayload s.moment

/-- `err_kind` (10_state.md R36). -/
def State.errKind (s : State) : BitVec 2 :=
  match s.presentedError with
  | some e => DecodeError.kind e
  | none => Config.idleErrKind s.moment

/-- `err_byte` (10_state.md R36). -/
def State.errByte (s : State) : Byte :=
  match s.presentedError with
  | some e => DecodeError.info e
  | none => Config.idleErrByte s.moment

/-- The consumer's answer on the result port, if a call is presented (10_state.md R37): that of the one operation the call
names, among those the consumer offered after the calls made before it. -/
def State.presentedResult (s : State) : Option Output :=
  s.presentedCall.bind (answerTo (Config.consumer.ops s.calls.dropLast))

/-- `result`: the consumer's answer, returned unchanged (10_state.md R37, 41_dispatch.md R146). -/
def State.result (s : State) : Output :=
  match s.presentedResult with
  | some r => r
  | none => Config.consumer.idle s.moment

/-- `mode_sel[12:0]`: the strobes of the accept logic for the Arg presented (10_state.md R38). No Arg, no strobe.
DEDUCED, log entry 9. -/
def State.modeSel (s : State) : BitVec 13 :=
  match s.presentedArg with
  | some a => strobesFor a
  | none => 0

end Sys2Proof.Machine
end

