-- ==== Sys2Proof/Safety.lean ====
section
/-! DEFINITION. The terms claims are stated in: when a decode may begin on given bytes, the state in which an instruction is
dispatched, what a dispatch leaves alone, and the invariants of the block. -/

namespace Sys2Proof

/-- The source's answers to its next `n` requests; fewer where it gives no answer to one of them and never will. -/
def ByteSource.upcoming : Nat → ByteSource → List Answer
  | 0, _ => []
  | n + 1, src =>
    match src.next with
    | some (a, rest) => a :: rest.upcoming n
    | none => []

/-- The source after its next `n` requests. -/
def ByteSource.skip : Nat → ByteSource → ByteSource
  | 0, src => src
  | n + 1, src =>
    match src.next with
    | some (_, rest) => rest.skip n
    | none => src

end Sys2Proof

namespace Sys2Proof.Machine

/-- A decode is about to begin: IDLE, a `start` is the caller's next pulse, and nobody else drives the source. -/
abbrev State.Starting (s : State) : Prop :=
  s.phase = .idle ∧ s.srcShared = false ∧ s.control.head? = some .start

/-- A decode is about to begin and the source will answer its next requests with these bytes. -/
abbrev State.ReadyFor (bs : List Byte) (s : State) : Prop :=
  s.Starting ∧ s.src.upcoming bs.length = bs.map .byte

/-- A decode is about to begin and the source will answer with exactly these bytes, then `StreamExhausted`. -/
abbrev State.EndsAfter (bs : List Byte) (s : State) : Prop :=
  s.Starting ∧ s.src.upcoming (bs.length + 1) = bs.map .byte ++ [.exhausted]

/-- A decode is about to begin and the source will answer with exactly these bytes, and then never again. -/
abbrev State.SilentAfter (bs : List Byte) (s : State) : Prop :=
  s.Starting ∧ s.src.upcoming (bs.length + 1) = bs.map .byte

/-- The phase in which the last of `n` bytes arrives (10_state.md R25). -/
def lastPhase (n : Nat) : Phase :=
  if n ≤ 1 then .opc else if n = 2 then .opr1 else .opr2

/-- From a state about to decode: the state in which the last of the instruction's bytes `bs` has been latched and nothing has
been dispatched yet (10_state.md R25, R26, R42). -/
def State.arrived (bs : List Byte) (s : State) : State :=
  { s with
    phase := lastPhase bs.length
    opc := bs[0]?
    lo := bs[1]?
    hi := bs[2]?
    ent := bs[0]?.bind (lookup s.rom)
    outcome := none
    src := s.src.skip bs.length
    cursor := s.cursor + bs.length
    control := s.control.tail
    moment := s.moment + 1 }

/-- Everything but the phase, the outcome presented and the record of calls is the same: the frame of a dispatch. -/
abbrev SameButOutcome (s t : State) : Prop :=
  t.rom = s.rom ∧ t.opc = s.opc ∧ t.lo = s.lo ∧ t.hi = s.hi ∧ t.ent = s.ent ∧ t.src = s.src ∧
    t.srcShared = s.srcShared ∧ t.cursor = s.cursor ∧ t.control = s.control ∧ t.moment = s.moment

/-- The Opcode Table has its fixed contents (10_state.md R24). -/
abbrev State.RomIntact (s : State) : Prop := s.rom = opcodeRom

/-- No latch holds a value (10_state.md R26, R43). -/
def State.latchesEmpty (s : State) : Bool := s.opc.isNone && s.lo.isNone && s.hi.isNone && s.ent.isNone

/-- The bytes the latched entry still needs (30_encoding.md R81). -/
def State.entryNeeds (s : State) (n : Nat) : Bool :=
  match s.ent with
  | some e => n ≤ operandCount e
  | none => false

/-- The outcome in DONE is the one the latches give (41_dispatch.md R142, R149): a dispatched call is that of the instruction
whose every byte is latched and is the last call made; an Undefined opcode is the latched one; `StreamExhausted` is presented
only where the latches hold no complete instruction. -/
def State.outcomeFits (s : State) : Bool :=
  match s.outcome with
  | some (.dispatched c) => (latchedInstr s).bind Instr.call == some c && s.calls.getLast? == some c
  | some (.failed (.undefinedOpcode b)) => latchedInstr s == some (.undefined b)
  | some (.failed .streamExhausted) => (latchedInstr s).isNone
  | none => false

/-- The block's own fields agree with one another: the entry latched is the one the table has for the opcode latched, each
phase has exactly the latches its fetches have written (10_state.md R25, R26), and an outcome is presented in DONE only
(R28). -/
def State.coherent (s : State) : Bool :=
  s.opc.bind (lookup s.rom) == s.ent &&
    match s.phase with
    | .idle | .opc => s.latchesEmpty && s.outcome.isNone
    | .opr1 => s.entryNeeds 1 && s.lo.isNone && s.hi.isNone && s.outcome.isNone
    | .opr2 => s.entryNeeds 2 && s.lo.isSome && s.hi.isNone && s.outcome.isNone
    | .done => s.outcomeFits

/-- The invariant of the block. -/
abbrev State.Inv (s : State) : Prop := s.RomIntact ∧ s.coherent = true

/-- A step that goes wrong inside the block: it reads a latch nothing wrote, or meets a corrupt table
(93_implementation_defined.md U6, U11). -/
def GoesWrong (o : StepOutcome) : Prop :=
  o = .fault .unwrittenLatch ∨ o = .fault .corruptTable

/-- `exec i` makes the one consumer call `m` with this Arg, or with none, and presents it with the answer of that operation:
from every state it completes, in DONE, with no error, one more call in the record, and all else as it was
(41_dispatch.md R145, R146; 10_state.md R34, R37). -/
def ExecCalls (i : Instr) (m : Mnemonic) (arg : Option Arg) (answer : InstrInterpreter Output → Output) : Prop :=
  ∀ s : State, ∃ t : State,
    exec i s = .next t ∧ t.done = true ∧ t.dispValid = true ∧ t.errValid = false ∧ t.presentedCall = some ⟨m, arg⟩ ∧
      t.result = answer (Config.consumer.ops s.calls) ∧ t.calls = s.calls ++ [⟨m, arg⟩] ∧ SameButOutcome s t

/-- The rule of one mnemonic that takes an Arg, over the opcodes and modes its rule lists, which are all it has in the table:
with every operand byte there, one
step consumes exactly the instruction, calls the mnemonic's operation once with the Arg `ReadOperand` gives for the mode, and
presents it; with an operand byte missing, the step ends in `StreamExhausted` and makes no call; and it never ends in
`UndefinedOpcode`. -/
def FollowsArgRule (mk : Arg → Instr) (m : Mnemonic) (index : BitVec 6) (answer : InstrInterpreter Output → Arg → Output)
    (forms : List (Byte × Mode)) : Prop :=
  (∀ (op : Byte) (mode : Mode), lookup opcodeRom op = some (.defined m mode) ↔ (op, mode) ∈ forms) ∧
  ∀ (s : State) (op : Byte) (mode : Mode), s.RomIntact → (op, mode) ∈ forms →
    (∀ ops : List Byte, ops.length = opLen mode → s.ReadyFor (op :: ops) →
      ∃ (a : Arg) (t : State), argOf mode ops[0]? ops[1]? = some a ∧ a.mode = mode ∧ step s = .next t ∧
        exec (mk a) (s.arrived (op :: ops)) = .next t ∧ t.dispValid = true ∧ t.errValid = false ∧ t.dispMnem = index ∧
        t.dispHasArg = true ∧ t.presentedCall = some ⟨m, some a⟩ ∧ t.result = answer (Config.consumer.ops s.calls) a ∧
        t.calls = s.calls ++ [⟨m, some a⟩] ∧ t.cursor = s.cursor + 1 + opLen mode) ∧
    (∀ ops : List Byte, ops.length < opLen mode → s.EndsAfter (op :: ops) →
      ∃ t : State, step s = .next t ∧ t.presentedError = some .streamExhausted ∧ t.dispValid = false ∧
        t.calls = s.calls ∧ t.cursor = s.cursor + 1 + ops.length) ∧
    (∀ (t : State) (b : Byte), s.ReadyFor [op] → step s = .next t → t.presentedError ≠ some (.undefinedOpcode b))

/-- The rule of one no-operand mnemonic, whose one opcode is `op`: one step consumes exactly its opcode byte, whatever follows it, calls the mnemonic's
operation once with no Arg, and presents it; neither error can arise. -/
def FollowsNoArgRule (i : Instr) (m : Mnemonic) (index : BitVec 6) (answer : InstrInterpreter Output → Output) (op : Byte) :
    Prop :=
  (∀ (op' : Byte) (mode : Mode), lookup opcodeRom op' = some (.defined m mode) ↔ op' = op ∧ mode = .implied) ∧
  ∀ s : State, s.RomIntact → s.ReadyFor [op] →
    ∃ t : State, step s = .next t ∧ exec i (s.arrived [op]) = .next t ∧ t.dispValid = true ∧ t.errValid = false ∧
      t.dispMnem = index ∧ t.dispHasArg = false ∧ t.presentedCall = some ⟨m, none⟩ ∧
      t.result = answer (Config.consumer.ops s.calls) ∧ t.calls = s.calls ++ [⟨m, none⟩] ∧ t.cursor = s.cursor + 1 ∧
      t.src = s.src.skip 1

end Sys2Proof.Machine
end

