-- ==== Sys2Proof/Certificates/Slice0/Obligations.lean ====
section
/-! DEFINITION. The statements about the block, each from the numbered rules of spec/ its docstring cites. -/

open Sys2Proof Sys2Proof.Machine

/-- 41_dispatch.md R142, R144, R145: where a decode is about to begin and the source gives bytes that decode to `i`, the step is
`exec i` at the state in which those bytes are latched and consumed (cursor, latches, phase and entry as `arrived` says). -/
def Obligations.StepRunsDecodedInstruction : Prop :=
  ∀ (s : State) (bs : List Byte) (i : Instr), s.RomIntact → s.ReadyFor bs → decode bs = .ok (i, []) →
    step s = exec i (s.arrived bs)

/-- 30_encoding.md R80, 41_dispatch.md R142: whatever the state, after `withFetchWord` the very next step runs the placed instruction,
with exactly its own bytes latched. `withFetchWord` itself is the model's (log entry 10). -/
def Obligations.PlacedInstructionRunsNext : Prop :=
  ∀ (s : State) (nbits w : Nat) (i : Instr), decodeTableWord nbits w = some i →
    step (s.withFetchWord nbits w) =
      exec i ((s.withFetchWord nbits w).arrived ((tableBytes nbits w).take (encode i).length))

/-- 95_test_vectors.md L1 and L2: one or two words of every family. -/
def Obligations.SpecWordsDecode : Prop :=
  decode [0xA9, 0x7F] = .ok (.lda (.immediate 0x7F), []) ∧ decode [0xAD, 0x34, 0x12] = .ok (.lda (.absolute 0x1234), []) ∧
  decode [0x69, 0x01] = .ok (.adc (.immediate 0x01), []) ∧ decode [0xF1, 0x44] = .ok (.sbc (.indirectIndexed 0x44), []) ∧
  decode [0x0A] = .ok (.asl .accumulator, []) ∧ decode [0x7E, 0x00, 0x20] = .ok (.ror (.absoluteX 0x2000), []) ∧
  decode [0x6C, 0xFC, 0xFF] = .ok (.jmp (.indirect 0xFFFC), []) ∧ decode [0xF0, 0xFE] = .ok (.beq (.relative (-2)), []) ∧
  decode [0x00, 0xFF] = .ok (.brk, [0xFF]) ∧ decode [0xE8] = .ok (.inx, []) ∧ decode [0x02, 0xE8] = .ok (.undefined 0x02, [0xE8]) ∧
  decode [0x4C, 0x34] = .error .streamExhausted

/-- 30_encoding.md R80, R83, R88, R90, R93: for every well-formed instruction, with every operand at every value, and whatever bytes
follow it. -/
def Obligations.DecodeEncodeRoundTrip : Prop :=
  ∀ (i : Instr) (rest : List Byte), i.wf = true → decode (encode i ++ rest) = .ok (i, rest)

/-- 30_encoding.md R80, R82, R88, R90 and 47_undefined.md R240: the other direction. In particular no Arg in a mode the family rules do not
list (STA Immediate, say) is ever decoded. -/
def Obligations.EncodeDecodeRoundTrip : Prop :=
  ∀ (bs rest : List Byte) (i : Instr), decode bs = .ok (i, rest) → i.wf = true ∧ bs = encode i ++ rest

/-- 30_encoding.md R82: a Defined instruction has `1 + opLen mode` bytes, whatever its operand bytes are; with fewer it is not there. -/
def Obligations.LengthFixedByOpcode : Prop :=
  ∀ (op : Byte) (m : Mnemonic) (mode : Mode), lookup opcodeRom op = some (.defined m mode) →
    (∀ bs : List Byte, opLen mode ≤ bs.length →
      ∃ a : Arg, a.mode = mode ∧ decode (op :: bs) = .ok (instrOf m a, bs.drop (opLen mode)) ∧
        (op :: bs).length = 1 + opLen mode + (bs.drop (opLen mode)).length) ∧
    (∀ bs : List Byte, bs.length < opLen mode → decode (op :: bs) = .error .streamExhausted)

/-- 30_encoding.md R88, R90, 41_dispatch.md R141: the ROM, built from the map of R88, defines `op` as (m, mode) exactly where R90 lists it
under `m` with that mode. -/
def Obligations.OpcodeTableAgreesWithMnemonicLists : Prop :=
  ∀ (op : Byte) (m : Mnemonic) (mode : Mode), lookup opcodeRom op = some (.defined m mode) ↔ (mode, op) ∈ m.forms

/-- 41_dispatch.md R140, 30_encoding.md R91, 47_undefined.md R240, 00_scope.md R7: lookup never fails; it is Undefined exactly on the 105 bytes
listed. -/
def Obligations.LookupTotal : Prop :=
  (∀ op : Byte, (∃ m mode, lookup opcodeRom op = some (.defined m mode) ∧ op ∉ undefinedBytes) ∨
      (lookup opcodeRom op = some .undefined ∧ op ∈ undefinedBytes)) ∧
    undefinedBytes.length = 105 ∧ undefinedBytes.Nodup

/-- 30_encoding.md R83: `w[10]` is def, `w[9:4]` the mnemonic index, `w[3:0]` the mode index, Undefined is 0, and reading a word gives its
entry back; the operand byte count is that of the mode. -/
def Obligations.RomWordLayout : Prop :=
  (∀ (m : Mnemonic) (mode : Mode), (Entry.defined m mode).toWord.getLsbD 10 = true ∧
      (Entry.defined m mode).toWord.extractLsb' 4 6 = m.index ∧ (Entry.defined m mode).toWord.extractLsb' 0 4 = mode.index ∧
      m.index.toNat ≤ 55 ∧ mode.index.toNat ≤ 12) ∧
    Entry.undefined.toWord = 0 ∧
    (∀ e : Entry, entryOf e.toWord = some e) ∧
    (∀ a : Arg, a.bytes.length = opLen a.mode)

/-- 30_encoding.md R84. -/
def Obligations.RomInvariants : Prop :=
  ∀ op : Byte, ∃ w : RomWord, opcodeRom[op.toNat]? = some w ∧
    (w.getLsbD 10 = false → w = 0) ∧
    (w.getLsbD 10 = true → w.extractLsb' 4 6 ≤ 55#6 ∧ w.extractLsb' 0 4 ≤ 12#4)

/-- 30_encoding.md R87: the 25 names, one opcode each, in mode Implied; no other mnemonic has an Implied opcode; the other 31 take an Arg. -/
def Obligations.NoOperandMnemonicsAreTheImpliedOnes : Prop :=
  (∀ (op : Byte) (m : Mnemonic) (mode : Mode), lookup opcodeRom op = some (.defined m mode) →
      (mode = .implied ↔ m.noOperand = true)) ∧
    (∀ (op op' : Byte) (m : Mnemonic) (mode mode' : Mode), m.noOperand = true → lookup opcodeRom op = some (.defined m mode) →
      lookup opcodeRom op' = some (.defined m mode') → op = op') ∧
    (∀ m : Mnemonic, ∃ (op : Byte) (mode : Mode), lookup opcodeRom op = some (.defined m mode)) ∧
    (Mnemonic.all.filter Mnemonic.noOperand) = [.BRK, .CLC, .CLD, .CLI, .CLV, .DEX, .DEY, .INX, .INY, .NOP, .PHA, .PHP, .PLA, .PLP,
      .RTI, .RTS, .SEC, .SED, .SEI, .TAX, .TAY, .TSX, .TXA, .TXS, .TYA] ∧
    (∀ (m : Mnemonic) (a : Arg), ∃ c, (instrOf m a).call = some c ∧ c.mnem = m ∧ c.arg = if m.noOperand then none else some a)

/-- 30_encoding.md R93 and 40_operand_reader.md R111 to R123, mode by mode; the Relative payload is `byte2`, or `byte2 - 256` from 0x80 on. -/
def Obligations.ReadOperandPayloads : Prop :=
  ∀ (lo hi : Option Byte) (v l h : Byte),
    argOf .implied lo hi = some .implied ∧ argOf .accumulator lo hi = some .accumulator ∧
    argOf .immediate (some v) hi = some (.immediate v) ∧ argOf .zeroPage (some v) hi = some (.zeroPage v) ∧
    argOf .zeroPageX (some v) hi = some (.zeroPageX v) ∧ argOf .zeroPageY (some v) hi = some (.zeroPageY v) ∧
    argOf .indexedIndirect (some v) hi = some (.indexedIndirect v) ∧
    argOf .indirectIndexed (some v) hi = some (.indirectIndexed v) ∧
    (∃ o : Int8, argOf .relative (some v) hi = some (.relative o) ∧
      o.toInt = if v.toNat < 0x80 then (v.toNat : Int) else (v.toNat : Int) - 256) ∧
    argOf .absolute (some l) (some h) = some (.absolute (h ++ l)) ∧ argOf .absoluteX (some l) (some h) = some (.absoluteX (h ++ l)) ∧
    argOf .absoluteY (some l) (some h) = some (.absoluteY (h ++ l)) ∧ argOf .indirect (some l) (some h) = some (.indirect (h ++ l))

/-- 20_memory.md R60: `address = low | (high << 8)`, on the bus, for every opcode of a 2-byte mode. -/
def Obligations.TwoByteOperandIsLittleEndian : Prop :=
  ∀ (s : State) (op l h : Byte) (m : Mnemonic) (mode : Mode), s.RomIntact → s.ReadyFor [op, l, h] →
    lookup opcodeRom op = some (.defined m mode) → opLen mode = 2 →
    ∃ t : State, step s = .next t ∧ t.argPayload.toNat = l.toNat + 256 * h.toNat ∧ t.argMode = mode.index ∧
      (mode = .absolute ∨ mode = .absoluteX ∨ mode = .absoluteY ∨ mode = .indirect)

/-- 10_state.md R34, R35, R42, 41_dispatch.md R145, R148: the wires in DONE and the cursor, for every Defined opcode. That a call without an
Arg shows payload 0 is read from R35 (log entry 8). -/
def Obligations.DispatchPorts : Prop :=
  ∀ (s : State) (op : Byte) (ops : List Byte) (m : Mnemonic) (mode : Mode), s.RomIntact → s.ReadyFor (op :: ops) →
    lookup opcodeRom op = some (.defined m mode) → ops.length = opLen mode →
    ∃ t : State, step s = .next t ∧ t.done = true ∧ t.busy = false ∧ t.srcReq = false ∧ t.dispValid = true ∧ t.errValid = false ∧
      t.dispMnem = m.index ∧ t.dispHasArg = !m.noOperand ∧ (m.noOperand = false → t.argMode = mode.index) ∧
      t.argPayload = (match ops with
        | [] => 0
        | [v] => v.setWidth 16
        | l :: h :: _ => h ++ l) ∧
      t.cursor = s.cursor + 1 + opLen mode ∧ t.src = s.src.skip (1 + opLen mode)

/-- 41_dispatch.md R143, 60_exceptions.md R251: for each of the 105 bytes; the next decode starts at the byte immediately following. The
source may end right after the byte: nothing further is requested. -/
def Obligations.UndefinedOpcodeTakesOneByte : Prop :=
  ∀ (s : State) (op : Byte), s.RomIntact → s.ReadyFor [op] → op ∈ undefinedBytes →
    ∃ t : State, step s = .next t ∧ exec (.undefined op) (s.arrived [op]) = .next t ∧ t.done = true ∧ t.errValid = true ∧
      t.presentedError = some (.undefinedOpcode op) ∧ t.errKind = 2 ∧ t.errByte = op ∧ t.dispValid = false ∧ t.calls = s.calls ∧
      t.cursor = s.cursor + 1 ∧ t.src = s.src.skip 1 ∧ t.lo = none ∧ t.hi = none

/-- 10_state.md R42, 41_dispatch.md R148 (first row), 60_exceptions.md R252. -/
def Obligations.ExhaustedAtOpcodeFetch : Prop :=
  ∀ s : State, s.EndsAfter [] →
    ∃ t : State, step s = .next t ∧ t.done = true ∧ t.errValid = true ∧ t.errKind = 1 ∧ t.errByte = 0 ∧ t.dispValid = false ∧
      t.calls = s.calls ∧ t.cursor = s.cursor ∧ t.opc = none ∧ t.ent = none

/-- 40_operand_reader.md R124, 60_exceptions.md R252, 10_state.md R42: the cursor has moved by the opcode and the operand bytes read before
the failure; no consumer operation is invoked. -/
def Obligations.PartialReadStaysConsumed : Prop :=
  ∀ (s : State) (op : Byte) (ops : List Byte) (m : Mnemonic) (mode : Mode), s.RomIntact → s.EndsAfter (op :: ops) →
    lookup opcodeRom op = some (.defined m mode) → ops.length < opLen mode →
    ∃ t : State, step s = .next t ∧ t.done = true ∧ t.errValid = true ∧ t.errKind = 1 ∧ t.errByte = 0 ∧ t.dispValid = false ∧
      t.presentedArg = none ∧ t.calls = s.calls ∧ t.cursor = s.cursor + 1 + ops.length

/-- 10_state.md R40 (c), 60_exceptions.md R264, 93_implementation_defined.md U4: stuck, in OPC, OPR1 and OPR2 alike. -/
def Obligations.SuspendedSourceHasNoStep : Prop :=
  ∀ s : State, s.busy = true → s.control = [] → s.srcShared = false → s.src.next = none →
    step s = .fault .sourceSuspended

/-- 10_state.md R25, R40, 20_memory.md R68, 95_test_vectors.md L2.4: the bytes that came are latched and consumed, no outcome is presented. -/
def Obligations.SuspensionKeepsProgress : Prop :=
  ∀ (s : State) (op : Byte) (ops : List Byte) (m : Mnemonic) (mode : Mode), s.RomIntact → s.SilentAfter (op :: ops) →
    lookup opcodeRom op = some (.defined m mode) → ops.length < opLen mode →
    ∃ t : State, step s = .next t ∧ t.phase = (if ops.length = 0 then .opr1 else .opr2) ∧ t.busy = true ∧ t.srcReq = true ∧
      t.dispValid = false ∧ t.errValid = false ∧ t.opc = some op ∧ t.ent = some (.defined m mode) ∧ t.lo = ops[0]? ∧ t.hi = none ∧
      t.cursor = s.cursor + 1 + ops.length ∧ t.calls = s.calls

/-- 20_memory.md R68, 10_state.md R40, 70_reset_and_hazards.md R290: a wait anywhere before an instruction's last byte, then the rest of it,
ends in the same state as reading it whole (one more step counted, log entry 6). -/
def Obligations.SplitReadEqualsWholeRead : Prop :=
  ∀ (s : State) (pre post : List Byte) (i : Instr) (w x : ByteSource), s.RomIntact → s.phase = .idle → s.srcShared = false →
    s.control = [.start] → decode (pre ++ post) = .ok (i, []) → post ≠ [] →
    w.upcoming pre.length = pre.map .byte → (w.skip pre.length).next = some (.wait, x) → x.upcoming post.length = post.map .byte →
    ∃ u v : State, step { s with src := w } = .next u ∧ u.busy = true ∧
      step { s with src := ⟨pre.map .byte ++ x.answers, x.thereafter⟩ } = .next v ∧ step u = .next { v with moment := v.moment + 1 }

/-- 20_memory.md R73, 70_reset_and_hazards.md R285, 93_implementation_defined.md U1: the model gives such a configuration no meaning. The flag
that says so is the model's choice (log entry 14). -/
def Obligations.SharedSourceRefused : Prop :=
  ∀ s : State, s.srcShared = true → (s.busy = true ∨ (s.phase = .idle ∧ s.control.head? = some .start)) →
    (∀ p, s.control ≠ .reset :: p) → step s = .refused .sharedSource

/-- 70_reset_and_hazards.md R280, R281, 10_state.md R43: from every state. That a reset in DONE leaves the call already made in the
consumer's history is the model's choice (log entry 16). -/
def Obligations.ResetAbandonsDecode : Prop :=
  ∀ (s : State) (p : List Pulse), s.control = .reset :: p →
    ∃ t : State, step s = .next t ∧ t.phase = .idle ∧ t.outcome = none ∧ t.latchesEmpty = true ∧ t.busy = false ∧ t.done = false ∧
      t.dispValid = false ∧ t.errValid = false ∧ t.srcReq = false ∧ t.rom = s.rom ∧ t.cursor = s.cursor ∧
      t.src = s.src ∧ t.calls = s.calls ∧ t.control = p

/-- 10_state.md R32: a `start` outside IDLE is ignored, and an `ack` is taken in DONE only. That a step takes one pulse and, with one
taken, a suspended decode waits where it is, is the model's (log entry 3). -/
def Obligations.PulseIgnoredDuringDecode : Prop :=
  ∀ (s : State) (q : Pulse) (p : List Pulse), s.busy = true → q ≠ .reset →
    (∀ t : State, step { s with control := [] } = .next t → step { s with control := q :: p } = .next { t with control := p }) ∧
    (step { s with control := [] } = .fault .sourceSuspended →
      step { s with control := q :: p } = .next { s with control := p, moment := s.moment + 1 })

/-- 10_state.md R32, R28, 60_exceptions.md R256: also the way out of an error. That DONE persists while no pulse comes is the model's
reading (log entry 3); that no latch holds a value after `ack` is its reading of 10_state.md R26 and R27 (log entry 13, DEDUCED). -/
def Obligations.AckReturnsToIdle : Prop :=
  ∀ (s : State) (p : List Pulse), s.phase = .done →
    (s.control = .ack :: p → ∃ t : State, step s = .next t ∧ t.phase = .idle ∧ t.done = false ∧ t.dispValid = false ∧ t.errValid = false ∧
      t.presentedArg = none ∧ t.outcome = none ∧ t.latchesEmpty = true ∧ t.rom = s.rom ∧ t.cursor = s.cursor ∧
      t.src = s.src ∧ t.calls = s.calls ∧ t.control = p) ∧
    (s.control = .start :: p → step s = .next { s with control := p, moment := s.moment + 1 }) ∧
    (s.control = [] → step s = .next { s with moment := s.moment + 1 })

/-- 10_state.md R25, 70_reset_and_hazards.md R282. That an idle block steps to itself is the model's reading (log entry 3). -/
def Obligations.DecodeBeginsOnlyAtStart : Prop :=
  ∀ s : State, s.phase = .idle → s.control.head? ≠ some .start →
    ∃ t : State, step s = .next t ∧ t.phase = .idle ∧ t.cursor = s.cursor ∧ t.src = s.src ∧ t.calls = s.calls ∧
      t.rom = s.rom ∧ t.srcReq = false ∧ t.dispValid = false ∧ t.errValid = false

/-- 10_state.md R24, R23: read-only, no write port, never mutated; over every step from every state, a reset among them. -/
def Obligations.RomNeverWritten : Prop :=
  ∀ s t : State, step s = .next t → t.rom = s.rom ∧ (s.RomIntact → t.RomIntact)

/-- 10_state.md R43: the table in the ROM, IDLE, latches without a value, the five outputs 0; and the invariant holds. -/
def Obligations.ResetMeetsInvariant : Prop :=
  State.reset.Inv ∧ State.reset.phase = .idle ∧ State.reset.rom = opcodeTable.map Entry.toWord ∧ State.reset.opc = none ∧ State.reset.lo = none ∧
    State.reset.hi = none ∧ State.reset.ent = none ∧ State.reset.busy = false ∧ State.reset.done = false ∧
    State.reset.dispValid = false ∧ State.reset.errValid = false ∧ State.reset.srcReq = false

/-- 10_state.md R24 to R28, 41_dispatch.md R140, R149: the table is intact; the entry latched is the table's for the opcode latched; each phase
has exactly the latches its fetches wrote; an outcome is presented in DONE only and is the one the latches give: a dispatched call is
that of a completely latched instruction and the last call made. -/
def Obligations.StepKeepsInvariant : Prop :=
  ∀ s t : State, s.Inv → step s = .next t → t.Inv

/-- 10_state.md R26 ("No rule reads it"), 30_encoding.md R84, 93_implementation_defined.md U6, U11. -/
def Obligations.NothingGoesWrong : Prop :=
  ∀ s : State, s.Inv → ¬ GoesWrong (step s)

/-- 10_state.md R30, R41, 20_memory.md R66, R67, R71, 70_reset_and_hazards.md R290: in stream order, no re-read, no read-ahead, no rewind, at
most 3 requests; from every state. -/
def Obligations.BytesConsumedOnceInOrder : Prop :=
  ∀ s t : State, step s = .next t →
    ∃ n : Nat, n ≤ 3 ∧ (s.src.upcoming n).length = n ∧ t.src = s.src.skip n ∧
      t.cursor = s.cursor + (s.src.upcoming n).countP fun a => a matches .byte _

/-- 41_dispatch.md R145, R149, 60_exceptions.md R254, R255: from every state; a consumer call and a block error never happen in the same decode. -/
def Obligations.AtMostOneCallPerStep : Prop :=
  ∀ s t : State, step s = .next t →
    (t.calls = s.calls ∨ ∃ c : Call, t.calls = s.calls ++ [c] ∧ t.presentedCall = some c ∧ t.outcome = some (.dispatched c)) ∧
    (t.errValid = true → t.calls = s.calls)

/-- 10_state.md R36, over every state. -/
def Obligations.ErrorAndDispatchExclude : Prop :=
  ∀ s : State, ¬ (s.dispValid = true ∧ s.errValid = true) ∧
    (s.errValid = true → s.phase = .done ∧
      ((s.presentedError = some .streamExhausted ∧ s.errKind = 1 ∧ s.errByte = 0) ∨
        ∃ b : Byte, s.presentedError = some (.undefinedOpcode b) ∧ s.errKind = 2 ∧ s.errByte = b)) ∧
    (s.dispValid = true → s.phase = .done) ∧
    (∀ e : DecodeError, s.phase = .done → s.outcome = some (.failed e) → s.errValid = true)

/-- 10_state.md R27: latches, presented outcome and cursor left by earlier decodes do not matter to the next one. -/
def Obligations.DecodeForgetsEarlierDecodes : Prop :=
  ∀ s u t : State, s.Starting → u.Starting → u.rom = s.rom → u.src = s.src → u.calls = s.calls →
    step s = .next t →
    ∃ v : State, step u = .next v ∧ v.phase = t.phase ∧ v.outcome = t.outcome ∧ v.opc = t.opc ∧ v.lo = t.lo ∧ v.hi = t.hi ∧ v.ent = t.ent ∧
      v.calls = t.calls ∧ v.src = t.src ∧ v.cursor + s.cursor = t.cursor + u.cursor

/-- 41_dispatch.md R147: a consumer with any other history, and so any other answers, gets the same calls for the same bytes. -/
def Obligations.ConsumptionIndependentOfConsumer : Prop :=
  ∀ (s t : State) (history : List Call), step s = .next t →
    ∃ v : State, step { s with calls := history } = .next v ∧ v.phase = t.phase ∧ v.cursor = t.cursor ∧ v.src = t.src ∧
      v.opc = t.opc ∧ v.lo = t.lo ∧ v.hi = t.hi ∧ v.ent = t.ent ∧ v.rom = t.rom ∧ v.control = t.control ∧
      v.presentedCall = t.presentedCall ∧ v.presentedError = t.presentedError ∧
      (t.calls = s.calls ∧ v.calls = history ∨ ∃ c : Call, t.calls = s.calls ++ [c] ∧ v.calls = history ++ [c])

/-- 40_operand_reader.md R126: each of the 13 modes, so that no other operation has a say; and `mode_sel[arg_mode]`
alone is asserted. -/
def Obligations.AcceptSelectsOwnMode : Prop :=
  ∀ (Out : Type) (ai : ArgInterpreter Out) (v : Byte) (x : Addr) (o : Int8),
    (accept .implied ai = ai.implied ∧ accept .accumulator ai = ai.accumulator ∧ accept (.immediate v) ai = ai.immediate v ∧
      accept (.zeroPage v) ai = ai.zeroPage v ∧ accept (.zeroPageX v) ai = ai.zeroPageX v ∧ accept (.zeroPageY v) ai = ai.zeroPageY v ∧
      accept (.absolute x) ai = ai.absolute x ∧ accept (.absoluteX x) ai = ai.absoluteX x ∧ accept (.absoluteY x) ai = ai.absoluteY x ∧
      accept (.indirect x) ai = ai.indirect x ∧ accept (.indexedIndirect v) ai = ai.indexedIndirect v ∧
      accept (.indirectIndexed v) ai = ai.indirectIndexed v ∧ accept (.relative o) ai = ai.relative o) ∧
    (∀ (a : Arg) (k : Fin 13), (strobesFor a).getLsbD k = decide (k.val = a.mode.index.toNat))

/-- 10_state.md R38, R28: over every state. That no strobe is asserted where no Arg is presented is the model's reading (log entry 9). -/
def Obligations.AcceptStrobesOfPresentedArg : Prop :=
  ∀ s : State, (∀ a : Arg, s.presentedArg = some a →
      s.dispValid = true ∧ s.dispHasArg = true ∧ s.argMode.toNat < 13 ∧ s.argPayload = busPayload a ∧
        ∀ k : Fin 13, s.modeSel.getLsbD k = decide (k.val = s.argMode.toNat)) ∧
    (s.presentedArg = none → s.modeSel = 0)

/-- 40_operand_reader.md R127: all 13 defaults. -/
def Obligations.DefaultModeOperationsAreUnsupported : Prop :=
  ∀ (Out : Type) (a : Arg), accept a ({} : ArgInterpreter Out) = .error .unsupportedAddressingMode

/-- 42_load_store.md R160, R161, R162, R163, R164, R165: every opcode of LDA, LDX, LDY, STA, STX and STY. -/
def Obligations.LoadStoreRules : Prop :=
  FollowsArgRule .lda .LDA 29 (·.lda)
    [(0xA1, .indexedIndirect), (0xA5, .zeroPage), (0xA9, .immediate), (0xAD, .absolute),
      (0xB1, .indirectIndexed), (0xB5, .zeroPageX), (0xB9, .absoluteY), (0xBD, .absoluteX)] ∧
  FollowsArgRule .ldx .LDX 30 (·.ldx)
    [(0xA2, .immediate), (0xA6, .zeroPage), (0xAE, .absolute), (0xB6, .zeroPageY),
      (0xBE, .absoluteY)] ∧
  FollowsArgRule .ldy .LDY 31 (·.ldy)
    [(0xA0, .immediate), (0xA4, .zeroPage), (0xAC, .absolute), (0xB4, .zeroPageX),
      (0xBC, .absoluteX)] ∧
  FollowsArgRule .sta .STA 47 (·.sta)
    [(0x81, .indexedIndirect), (0x85, .zeroPage), (0x8D, .absolute), (0x91, .indirectIndexed),
      (0x95, .zeroPageX), (0x99, .absoluteY), (0x9D, .absoluteX)] ∧
  FollowsArgRule .stx .STX 48 (·.stx) [(0x86, .zeroPage), (0x8E, .absolute), (0x96, .zeroPageY)] ∧
  FollowsArgRule .sty .STY 49 (·.sty) [(0x84, .zeroPage), (0x8C, .absolute), (0x94, .zeroPageX)]

/-- 43_alu.md R170, R171, R172, R173, R174, R175, R176, R177, R178: every opcode of ADC, SBC, AND, ORA, EOR, CMP, CPX, CPY and BIT. -/
def Obligations.AluRules : Prop :=
  FollowsArgRule .adc .ADC 0 (·.adc)
    [(0x61, .indexedIndirect), (0x65, .zeroPage), (0x69, .immediate), (0x6D, .absolute),
      (0x71, .indirectIndexed), (0x75, .zeroPageX), (0x79, .absoluteY), (0x7D, .absoluteX)] ∧
  FollowsArgRule .sbc .SBC 43 (·.sbc)
    [(0xE1, .indexedIndirect), (0xE5, .zeroPage), (0xE9, .immediate), (0xED, .absolute),
      (0xF1, .indirectIndexed), (0xF5, .zeroPageX), (0xF9, .absoluteY), (0xFD, .absoluteX)] ∧
  FollowsArgRule .and .AND 1 (·.and)
    [(0x21, .indexedIndirect), (0x25, .zeroPage), (0x29, .immediate), (0x2D, .absolute),
      (0x31, .indirectIndexed), (0x35, .zeroPageX), (0x39, .absoluteY), (0x3D, .absoluteX)] ∧
  FollowsArgRule .ora .ORA 34 (·.ora)
    [(0x01, .indexedIndirect), (0x05, .zeroPage), (0x09, .immediate), (0x0D, .absolute),
      (0x11, .indirectIndexed), (0x15, .zeroPageX), (0x19, .absoluteY), (0x1D, .absoluteX)] ∧
  FollowsArgRule .eor .EOR 23 (·.eor)
    [(0x41, .indexedIndirect), (0x45, .zeroPage), (0x49, .immediate), (0x4D, .absolute),
      (0x51, .indirectIndexed), (0x55, .zeroPageX), (0x59, .absoluteY), (0x5D, .absoluteX)] ∧
  FollowsArgRule .cmp .CMP 17 (·.cmp)
    [(0xC1, .indexedIndirect), (0xC5, .zeroPage), (0xC9, .immediate), (0xCD, .absolute),
      (0xD1, .indirectIndexed), (0xD5, .zeroPageX), (0xD9, .absoluteY), (0xDD, .absoluteX)] ∧
  FollowsArgRule .cpx .CPX 18 (·.cpx) [(0xE0, .immediate), (0xE4, .zeroPage), (0xEC, .absolute)] ∧
  FollowsArgRule .cpy .CPY 19 (·.cpy) [(0xC0, .immediate), (0xC4, .zeroPage), (0xCC, .absolute)] ∧
  FollowsArgRule .bit .BIT 6 (·.bit) [(0x24, .zeroPage), (0x2C, .absolute)]

/-- 44_rmw.md R180, R181, R182, R183, R184, R185: every opcode of ASL, LSR, ROL, ROR, INC and DEC, the Accumulator forms among them. -/
def Obligations.ReadModifyWriteRules : Prop :=
  FollowsArgRule .asl .ASL 2 (·.asl)
    [(0x06, .zeroPage), (0x0A, .accumulator), (0x0E, .absolute), (0x16, .zeroPageX),
      (0x1E, .absoluteX)] ∧
  FollowsArgRule .lsr .LSR 32 (·.lsr)
    [(0x46, .zeroPage), (0x4A, .accumulator), (0x4E, .absolute), (0x56, .zeroPageX),
      (0x5E, .absoluteX)] ∧
  FollowsArgRule .rol .ROL 39 (·.rol)
    [(0x26, .zeroPage), (0x2A, .accumulator), (0x2E, .absolute), (0x36, .zeroPageX),
      (0x3E, .absoluteX)] ∧
  FollowsArgRule .ror .ROR 40 (·.ror)
    [(0x66, .zeroPage), (0x6A, .accumulator), (0x6E, .absolute), (0x76, .zeroPageX),
      (0x7E, .absoluteX)] ∧
  FollowsArgRule .inc .INC 24 (·.inc) [(0xE6, .zeroPage), (0xEE, .absolute), (0xF6, .zeroPageX), (0xFE, .absoluteX)] ∧
  FollowsArgRule .dec .DEC 20 (·.dec) [(0xC6, .zeroPage), (0xCE, .absolute), (0xD6, .zeroPageX), (0xDE, .absoluteX)]

/-- 45_control.md R190, R191, R195, R196, R197, R198, R199, R200, R201, R202: every opcode of JMP, JSR and the eight branches; no target is computed. -/
def Obligations.JumpAndBranchRules : Prop :=
  FollowsArgRule .jmp .JMP 27 (·.jmp) [(0x4C, .absolute), (0x6C, .indirect)] ∧
  FollowsArgRule .jsr .JSR 28 (·.jsr) [(0x20, .absolute)] ∧
  FollowsArgRule .bpl .BPL 9 (·.bpl) [(0x10, .relative)] ∧
  FollowsArgRule .bmi .BMI 7 (·.bmi) [(0x30, .relative)] ∧
  FollowsArgRule .bvc .BVC 11 (·.bvc) [(0x50, .relative)] ∧
  FollowsArgRule .bvs .BVS 12 (·.bvs) [(0x70, .relative)] ∧
  FollowsArgRule .bcc .BCC 3 (·.bcc) [(0x90, .relative)] ∧
  FollowsArgRule .bcs .BCS 4 (·.bcs) [(0xB0, .relative)] ∧
  FollowsArgRule .bne .BNE 8 (·.bne) [(0xD0, .relative)] ∧
  FollowsArgRule .beq .BEQ 5 (·.beq) [(0xF0, .relative)]

/-- 45_control.md R192, R193, R194: RTS, RTI and BRK; BRK takes 1 byte. -/
def Obligations.ReturnAndBreakRules : Prop :=
  FollowsNoArgRule .rts .RTS 42 (·.rts) 0x60 ∧
  FollowsNoArgRule .rti .RTI 41 (·.rti) 0x40 ∧
  FollowsNoArgRule .brk .BRK 10 (·.brk) 0x00

/-- 46_implied.md R210, R211, R212, R213, R214, R215, R216, R217, R218, R219: INX, INY, DEX, DEY and the six transfers. -/
def Obligations.RegisterRules : Prop :=
  FollowsNoArgRule .inx .INX 25 (·.inx) 0xE8 ∧
  FollowsNoArgRule .iny .INY 26 (·.iny) 0xC8 ∧
  FollowsNoArgRule .dex .DEX 21 (·.dex) 0xCA ∧
  FollowsNoArgRule .dey .DEY 22 (·.dey) 0x88 ∧
  FollowsNoArgRule .tax .TAX 50 (·.tax) 0xAA ∧
  FollowsNoArgRule .tay .TAY 51 (·.tay) 0xA8 ∧
  FollowsNoArgRule .txa .TXA 53 (·.txa) 0x8A ∧
  FollowsNoArgRule .tya .TYA 55 (·.tya) 0x98 ∧
  FollowsNoArgRule .txs .TXS 54 (·.txs) 0x9A ∧
  FollowsNoArgRule .tsx .TSX 52 (·.tsx) 0xBA

/-- 46_implied.md R220, R221, R222, R223, R224, R225, R226, R227, R228, R229, R230, R231: PHA, PLA, PHP, PLP, CLC, CLD, CLI, CLV, SEC, SED, SEI and NOP. -/
def Obligations.StackAndFlagRules : Prop :=
  FollowsNoArgRule .pha .PHA 35 (·.pha) 0x48 ∧
  FollowsNoArgRule .pla .PLA 37 (·.pla) 0x68 ∧
  FollowsNoArgRule .php .PHP 36 (·.php) 0x08 ∧
  FollowsNoArgRule .plp .PLP 38 (·.plp) 0x28 ∧
  FollowsNoArgRule .clc .CLC 13 (·.clc) 0x18 ∧
  FollowsNoArgRule .cld .CLD 14 (·.cld) 0xD8 ∧
  FollowsNoArgRule .cli .CLI 15 (·.cli) 0x58 ∧
  FollowsNoArgRule .clv .CLV 16 (·.clv) 0xB8 ∧
  FollowsNoArgRule .sec .SEC 44 (·.sec) 0x38 ∧
  FollowsNoArgRule .sed .SED 45 (·.sed) 0xF8 ∧
  FollowsNoArgRule .sei .SEI 46 (·.sei) 0x78 ∧
  FollowsNoArgRule .nop .NOP 33 (·.nop) 0xEA

/-- 41_dispatch.md R145, R146, 10_state.md R37: the dispatch of LDA, LDX, LDY, STA, STX, STY completes from every state: exactly one call of
the operation so named, its answer on the result port unchanged, and every other piece of state as it was. -/
def Obligations.LoadStoreDispatch : Prop :=
  ∀ a : Arg,
    ExecCalls (.lda a) .LDA (some a) (·.lda a) ∧
    ExecCalls (.ldx a) .LDX (some a) (·.ldx a) ∧
    ExecCalls (.ldy a) .LDY (some a) (·.ldy a) ∧
    ExecCalls (.sta a) .STA (some a) (·.sta a) ∧
    ExecCalls (.stx a) .STX (some a) (·.stx a) ∧
    ExecCalls (.sty a) .STY (some a) (·.sty a)

/-- 41_dispatch.md R145, R146, 10_state.md R37: the dispatch of ADC, SBC, AND, ORA, EOR, CMP, CPX, CPY, BIT completes from every state: exactly one call of
the operation so named, its answer on the result port unchanged, and every other piece of state as it was. -/
def Obligations.AluDispatch : Prop :=
  ∀ a : Arg,
    ExecCalls (.adc a) .ADC (some a) (·.adc a) ∧
    ExecCalls (.sbc a) .SBC (some a) (·.sbc a) ∧
    ExecCalls (.and a) .AND (some a) (·.and a) ∧
    ExecCalls (.ora a) .ORA (some a) (·.ora a) ∧
    ExecCalls (.eor a) .EOR (some a) (·.eor a) ∧
    ExecCalls (.cmp a) .CMP (some a) (·.cmp a) ∧
    ExecCalls (.cpx a) .CPX (some a) (·.cpx a) ∧
    ExecCalls (.cpy a) .CPY (some a) (·.cpy a) ∧
    ExecCalls (.bit a) .BIT (some a) (·.bit a)

/-- 41_dispatch.md R145, R146, 10_state.md R37: the dispatch of ASL, LSR, ROL, ROR, INC, DEC completes from every state: exactly one call of
the operation so named, its answer on the result port unchanged, and every other piece of state as it was. -/
def Obligations.ReadModifyWriteDispatch : Prop :=
  ∀ a : Arg,
    ExecCalls (.asl a) .ASL (some a) (·.asl a) ∧
    ExecCalls (.lsr a) .LSR (some a) (·.lsr a) ∧
    ExecCalls (.rol a) .ROL (some a) (·.rol a) ∧
    ExecCalls (.ror a) .ROR (some a) (·.ror a) ∧
    ExecCalls (.inc a) .INC (some a) (·.inc a) ∧
    ExecCalls (.dec a) .DEC (some a) (·.dec a)

/-- 41_dispatch.md R145, R146, 10_state.md R37: the dispatch of JMP, JSR, BPL, BMI, BVC, BVS, BCC, BCS, BNE, BEQ completes from every state: exactly one call of
the operation so named, its answer on the result port unchanged, and every other piece of state as it was. -/
def Obligations.JumpAndBranchDispatch : Prop :=
  ∀ a : Arg,
    ExecCalls (.jmp a) .JMP (some a) (·.jmp a) ∧
    ExecCalls (.jsr a) .JSR (some a) (·.jsr a) ∧
    ExecCalls (.bpl a) .BPL (some a) (·.bpl a) ∧
    ExecCalls (.bmi a) .BMI (some a) (·.bmi a) ∧
    ExecCalls (.bvc a) .BVC (some a) (·.bvc a) ∧
    ExecCalls (.bvs a) .BVS (some a) (·.bvs a) ∧
    ExecCalls (.bcc a) .BCC (some a) (·.bcc a) ∧
    ExecCalls (.bcs a) .BCS (some a) (·.bcs a) ∧
    ExecCalls (.bne a) .BNE (some a) (·.bne a) ∧
    ExecCalls (.beq a) .BEQ (some a) (·.beq a)

/-- 41_dispatch.md R145, R146, 10_state.md R37: the dispatch of RTS, RTI, BRK completes from every state: exactly one call of
the operation so named, its answer on the result port unchanged, and every other piece of state as it was. -/
def Obligations.NoOperandControlDispatch : Prop :=
  ExecCalls .rts .RTS none (·.rts) ∧
  ExecCalls .rti .RTI none (·.rti) ∧
  ExecCalls .brk .BRK none (·.brk)

/-- 41_dispatch.md R145, R146, 10_state.md R37: the dispatch of INX, INY, DEX, DEY, TAX, TAY, TXA, TYA, TXS, TSX, PHA, PLA, PHP, PLP, CLC, CLD, CLI, CLV, SEC, SED, SEI, NOP completes from every state: exactly one call of
the operation so named, its answer on the result port unchanged, and every other piece of state as it was. -/
def Obligations.ImpliedDispatch : Prop :=
  ExecCalls .inx .INX none (·.inx) ∧
  ExecCalls .iny .INY none (·.iny) ∧
  ExecCalls .dex .DEX none (·.dex) ∧
  ExecCalls .dey .DEY none (·.dey) ∧
  ExecCalls .tax .TAX none (·.tax) ∧
  ExecCalls .tay .TAY none (·.tay) ∧
  ExecCalls .txa .TXA none (·.txa) ∧
  ExecCalls .tya .TYA none (·.tya) ∧
  ExecCalls .txs .TXS none (·.txs) ∧
  ExecCalls .tsx .TSX none (·.tsx) ∧
  ExecCalls .pha .PHA none (·.pha) ∧
  ExecCalls .pla .PLA none (·.pla) ∧
  ExecCalls .php .PHP none (·.php) ∧
  ExecCalls .plp .PLP none (·.plp) ∧
  ExecCalls .clc .CLC none (·.clc) ∧
  ExecCalls .cld .CLD none (·.cld) ∧
  ExecCalls .cli .CLI none (·.cli) ∧
  ExecCalls .clv .CLV none (·.clv) ∧
  ExecCalls .sec .SEC none (·.sec) ∧
  ExecCalls .sed .SED none (·.sed) ∧
  ExecCalls .sei .SEI none (·.sei) ∧
  ExecCalls .nop .NOP none (·.nop)

/-- 41_dispatch.md R143, 47_undefined.md R240, 60_exceptions.md R251, R256: its whole effect is the error; no state is saved, no call made. -/
def Obligations.UndefinedDispatch : Prop :=
  ∀ (b : Byte) (s : State), ∃ t : State, exec (.undefined b) s = .next t ∧ t.done = true ∧ t.errValid = true ∧ t.errKind = 2 ∧ t.errByte = b ∧
    t.dispValid = false ∧ t.presentedCall = none ∧ t.calls = s.calls ∧ SameButOutcome s t
end

