-- ==== Sys2Proof/Laws/Decode.lean ====
section
/-! SUPPORT. Lemmas about the table, its words, operand assembly and the call of an instruction. -/

namespace Sys2Proof

@[simp] theorem Mnemonic.ofIndex_index (m : Mnemonic) : Mnemonic.ofIndex m.index = some m := by cases m <;> rfl

@[simp] theorem Mode.ofIndex_index (mode : Mode) : Mode.ofIndex mode.index = some mode := by cases mode <;> rfl

/-- The bits of a Defined word, field by field. -/
theorem defined_word_getLsbD (m : BitVec 6) (k : BitVec 4) (i : Nat) :
    (1#1 ++ m ++ k).getLsbD i =
      if i < 4 then k.getLsbD i else if i < 10 then m.getLsbD (i - 4) else (1#1).getLsbD (i - 10) := by
  rw [BitVec.getLsbD_append, BitVec.getLsbD_append]
  by_cases h : i < 4 <;> by_cases h' : i < 10 <;> simp [h, h', Nat.sub_sub] <;> omega

/-- The three fields of a Defined word. -/
theorem defined_word_fields (m : BitVec 6) (k : BitVec 4) :
    (1#1 ++ m ++ k).getLsbD 10 = true ∧ (1#1 ++ m ++ k).extractLsb' 4 6 = m ∧ (1#1 ++ m ++ k).extractLsb' 0 4 = k := by
  refine ⟨defined_word_getLsbD m k 10, ?_, ?_⟩
  · apply BitVec.eq_of_getLsbD_eq
    intro i hi
    rw [BitVec.getLsbD_extractLsb', defined_word_getLsbD]
    simp [hi, show 4 + i < 10 by omega]
  · apply BitVec.eq_of_getLsbD_eq
    intro i hi
    rw [BitVec.getLsbD_extractLsb', defined_word_getLsbD]
    simp [hi]

@[simp] theorem opcodeTable_length : opcodeTable.length = 256 := by decide +kernel

@[simp] theorem opcodeRom_length : opcodeRom.length = 256 := by simp [opcodeRom]

/-- `argOf` answers as soon as the mode's bytes are there. -/
theorem argOf_isSome {mode : Mode} {lo hi : Option Byte} (h1 : 1 ≤ opLen mode → lo.isSome) (h2 : 2 ≤ opLen mode → hi.isSome) :
    ∃ a, argOf mode lo hi = some a ∧ a.mode = mode := by
  cases mode <;> simp [opLen] at h1 h2 <;> try obtain ⟨l, rfl⟩ := Option.isSome_iff_exists.mp h1
  all_goals try obtain ⟨h, rfl⟩ := Option.isSome_iff_exists.mp h2
  all_goals exact ⟨_, rfl, rfl⟩

/-- A mode with an operand byte cannot be read without the first one. -/
theorem argOf_none_lo {mode : Mode} (hi : Option Byte) (h : 1 ≤ opLen mode) : argOf mode none hi = none := by
  cases mode <;> simp [opLen] at h <;> simp [argOf, addrOf?]

/-- A mode with two operand bytes cannot be read without the second one. -/
theorem argOf_none_hi {mode : Mode} (lo : Option Byte) (h : 2 ≤ opLen mode) : argOf mode lo none = none := by
  cases mode <;> simp [opLen] at h <;> cases lo <;> simp [argOf, addrOf?]

/-- A Defined entry's instruction is never the Undefined one: it has a call, of the entry's mnemonic, with an Arg exactly where
the mnemonic takes one. -/
@[simp] theorem instrOf_call (m : Mnemonic) (a : Arg) :
    (instrOf m a).call = some ⟨m, if m.noOperand then none else some a⟩ := by cases m <;> rfl

end Sys2Proof
end

