-- ==== Sys2Proof/Laws/State.lean ====
section
/-! SUPPORT. One lemma per field per update of the state, so that no proof unfolds a record update. -/

namespace Sys2Proof.Machine

/-! ### `nextMoment` -/

@[simp] theorem State.nextMoment_rom (s : State) : (s.nextMoment).rom = s.rom := rfl
@[simp] theorem State.nextMoment_phase (s : State) : (s.nextMoment).phase = s.phase := rfl
@[simp] theorem State.nextMoment_opc (s : State) : (s.nextMoment).opc = s.opc := rfl
@[simp] theorem State.nextMoment_lo (s : State) : (s.nextMoment).lo = s.lo := rfl
@[simp] theorem State.nextMoment_hi (s : State) : (s.nextMoment).hi = s.hi := rfl
@[simp] theorem State.nextMoment_ent (s : State) : (s.nextMoment).ent = s.ent := rfl
@[simp] theorem State.nextMoment_outcome (s : State) : (s.nextMoment).outcome = s.outcome := rfl
@[simp] theorem State.nextMoment_src (s : State) : (s.nextMoment).src = s.src := rfl
@[simp] theorem State.nextMoment_srcShared (s : State) : (s.nextMoment).srcShared = s.srcShared := rfl
@[simp] theorem State.nextMoment_cursor (s : State) : (s.nextMoment).cursor = s.cursor := rfl
@[simp] theorem State.nextMoment_control (s : State) : (s.nextMoment).control = s.control := rfl
@[simp] theorem State.nextMoment_calls (s : State) : (s.nextMoment).calls = s.calls := rfl
@[simp] theorem State.nextMoment_moment (s : State) : (s.nextMoment).moment = s.moment + 1 := rfl

/-! ### `blank`, `resetBlock` -/

@[simp] theorem State.blank_rom (s : State) : (s.blank).rom = s.rom := rfl
@[simp] theorem State.blank_phase (s : State) : (s.blank).phase = .idle := rfl
@[simp] theorem State.blank_opc (s : State) : (s.blank).opc = none := rfl
@[simp] theorem State.blank_lo (s : State) : (s.blank).lo = none := rfl
@[simp] theorem State.blank_hi (s : State) : (s.blank).hi = none := rfl
@[simp] theorem State.blank_ent (s : State) : (s.blank).ent = none := rfl
@[simp] theorem State.blank_outcome (s : State) : (s.blank).outcome = none := rfl
@[simp] theorem State.blank_src (s : State) : (s.blank).src = s.src := rfl
@[simp] theorem State.blank_srcShared (s : State) : (s.blank).srcShared = s.srcShared := rfl
@[simp] theorem State.blank_cursor (s : State) : (s.blank).cursor = s.cursor := rfl
@[simp] theorem State.blank_control (s : State) : (s.blank).control = s.control := rfl
@[simp] theorem State.blank_calls (s : State) : (s.blank).calls = s.calls := rfl
@[simp] theorem State.blank_moment (s : State) : (s.blank).moment = s.moment := rfl

@[simp] theorem State.resetBlock_rom (s : State) : (s.resetBlock).rom = s.rom := rfl
@[simp] theorem State.resetBlock_phase (s : State) : (s.resetBlock).phase = .idle := rfl
@[simp] theorem State.resetBlock_opc (s : State) : (s.resetBlock).opc = none := rfl
@[simp] theorem State.resetBlock_lo (s : State) : (s.resetBlock).lo = none := rfl
@[simp] theorem State.resetBlock_hi (s : State) : (s.resetBlock).hi = none := rfl
@[simp] theorem State.resetBlock_ent (s : State) : (s.resetBlock).ent = none := rfl
@[simp] theorem State.resetBlock_outcome (s : State) : (s.resetBlock).outcome = none := rfl
@[simp] theorem State.resetBlock_src (s : State) : (s.resetBlock).src = s.src := rfl
@[simp] theorem State.resetBlock_srcShared (s : State) : (s.resetBlock).srcShared = s.srcShared := rfl
@[simp] theorem State.resetBlock_cursor (s : State) : (s.resetBlock).cursor = s.cursor := rfl
@[simp] theorem State.resetBlock_control (s : State) : (s.resetBlock).control = s.control := rfl
@[simp] theorem State.resetBlock_calls (s : State) : (s.resetBlock).calls = s.calls := rfl
@[simp] theorem State.resetBlock_moment (s : State) : (s.resetBlock).moment = s.moment := rfl

/-! ### `raise` -/

@[simp] theorem State.raise_rom (e : DecodeError) (s : State) : (s.raise e).rom = s.rom := rfl
@[simp] theorem State.raise_phase (e : DecodeError) (s : State) : (s.raise e).phase = .done := rfl
@[simp] theorem State.raise_opc (e : DecodeError) (s : State) : (s.raise e).opc = s.opc := rfl
@[simp] theorem State.raise_lo (e : DecodeError) (s : State) : (s.raise e).lo = s.lo := rfl
@[simp] theorem State.raise_hi (e : DecodeError) (s : State) : (s.raise e).hi = s.hi := rfl
@[simp] theorem State.raise_ent (e : DecodeError) (s : State) : (s.raise e).ent = s.ent := rfl
@[simp] theorem State.raise_outcome (e : DecodeError) (s : State) : (s.raise e).outcome = some (.failed e) := rfl
@[simp] theorem State.raise_src (e : DecodeError) (s : State) : (s.raise e).src = s.src := rfl
@[simp] theorem State.raise_srcShared (e : DecodeError) (s : State) : (s.raise e).srcShared = s.srcShared := rfl
@[simp] theorem State.raise_cursor (e : DecodeError) (s : State) : (s.raise e).cursor = s.cursor := rfl
@[simp] theorem State.raise_control (e : DecodeError) (s : State) : (s.raise e).control = s.control := rfl
@[simp] theorem State.raise_calls (e : DecodeError) (s : State) : (s.raise e).calls = s.calls := rfl
@[simp] theorem State.raise_moment (e : DecodeError) (s : State) : (s.raise e).moment = s.moment := rfl

/-! ### `deliver` -/

@[simp] theorem State.deliver_rom (c : Call) (s : State) : (s.deliver c).rom = s.rom := rfl
@[simp] theorem State.deliver_phase (c : Call) (s : State) : (s.deliver c).phase = .done := rfl
@[simp] theorem State.deliver_opc (c : Call) (s : State) : (s.deliver c).opc = s.opc := rfl
@[simp] theorem State.deliver_lo (c : Call) (s : State) : (s.deliver c).lo = s.lo := rfl
@[simp] theorem State.deliver_hi (c : Call) (s : State) : (s.deliver c).hi = s.hi := rfl
@[simp] theorem State.deliver_ent (c : Call) (s : State) : (s.deliver c).ent = s.ent := rfl
@[simp] theorem State.deliver_outcome (c : Call) (s : State) : (s.deliver c).outcome = some (.dispatched c) := rfl
@[simp] theorem State.deliver_src (c : Call) (s : State) : (s.deliver c).src = s.src := rfl
@[simp] theorem State.deliver_srcShared (c : Call) (s : State) : (s.deliver c).srcShared = s.srcShared := rfl
@[simp] theorem State.deliver_cursor (c : Call) (s : State) : (s.deliver c).cursor = s.cursor := rfl
@[simp] theorem State.deliver_control (c : Call) (s : State) : (s.deliver c).control = s.control := rfl
@[simp] theorem State.deliver_calls (c : Call) (s : State) : (s.deliver c).calls = s.calls ++ [c] := rfl
@[simp] theorem State.deliver_moment (c : Call) (s : State) : (s.deliver c).moment = s.moment := rfl

/-! ### `place` -/

@[simp] theorem State.place_rom (bs : List Byte) (s : State) : (s.place bs).rom = opcodeRom := rfl
@[simp] theorem State.place_phase (bs : List Byte) (s : State) : (s.place bs).phase = .idle := rfl
@[simp] theorem State.place_opc (bs : List Byte) (s : State) : (s.place bs).opc = none := rfl
@[simp] theorem State.place_lo (bs : List Byte) (s : State) : (s.place bs).lo = none := rfl
@[simp] theorem State.place_hi (bs : List Byte) (s : State) : (s.place bs).hi = none := rfl
@[simp] theorem State.place_ent (bs : List Byte) (s : State) : (s.place bs).ent = none := rfl
@[simp] theorem State.place_outcome (bs : List Byte) (s : State) : (s.place bs).outcome = none := rfl
@[simp] theorem State.place_src (bs : List Byte) (s : State) :
    (s.place bs).src = { s.src with answers := bs.map .byte ++ s.src.answers } := rfl
@[simp] theorem State.place_srcShared (bs : List Byte) (s : State) : (s.place bs).srcShared = false := rfl
@[simp] theorem State.place_cursor (bs : List Byte) (s : State) : (s.place bs).cursor = s.cursor := rfl
@[simp] theorem State.place_control (bs : List Byte) (s : State) : (s.place bs).control = .start :: s.control := rfl
@[simp] theorem State.place_calls (bs : List Byte) (s : State) : (s.place bs).calls = s.calls := rfl
@[simp] theorem State.place_moment (bs : List Byte) (s : State) : (s.place bs).moment = s.moment := rfl

end Sys2Proof.Machine
end

