-- ==== Sys2Proof/Laws/Ops.lean ====
section
/-! SUPPORT. What each operation over the state can do, said once. -/

namespace Sys2Proof.Machine

/-! ### The byte source -/

end Sys2Proof.Machine

namespace Sys2Proof

@[simp] theorem ByteSource.next_cons (a : Answer) (rest : List Answer) (e : SourceEnd) :
    ByteSource.next ⟨a :: rest, e⟩ = some (a, ⟨rest, e⟩) := rfl
@[simp] theorem ByteSource.next_exhausted : ByteSource.next ⟨[], .exhausted⟩ = some (.exhausted, ⟨[], .exhausted⟩) := rfl
@[simp] theorem ByteSource.next_suspended : ByteSource.next ⟨[], .suspended⟩ = none := rfl
@[simp] theorem ByteSource.next_stream (n : Nat) :
    ByteSource.next ⟨[], .stream n⟩ = some (Config.source n, ⟨[], .stream (n + 1)⟩) := rfl

@[simp] theorem ByteSource.upcoming_zero (src : ByteSource) : src.upcoming 0 = [] := rfl
@[simp] theorem ByteSource.skip_zero (src : ByteSource) : src.skip 0 = src := rfl

theorem ByteSource.upcoming_of_next {src rest : ByteSource} {a : Answer} (h : src.next = some (a, rest)) (n : Nat) :
    src.upcoming (n + 1) = a :: rest.upcoming n := by simp [upcoming, h]

theorem ByteSource.skip_of_next {src rest : ByteSource} {a : Answer} (h : src.next = some (a, rest)) (n : Nat) :
    src.skip (n + 1) = rest.skip n := by simp [skip, h]

theorem ByteSource.skip_of_none {src : ByteSource} (h : src.next = none) (n : Nat) : src.skip n = src := by
  cases n <;> simp [skip, h]

theorem ByteSource.upcoming_of_none {src : ByteSource} (h : src.next = none) (n : Nat) : src.upcoming n = [] := by
  cases n <;> simp [upcoming, h]

/-- A source whose next answers begin with `a` gives it to the next request. -/
theorem ByteSource.next_of_upcoming {src : ByteSource} {n : Nat} {a : Answer} {l : List Answer}
    (h : src.upcoming (n + 1) = a :: l) : ∃ rest, src.next = some (a, rest) ∧ rest.upcoming n = l := by
  unfold upcoming at h
  split at h
  · simp only [List.cons.injEq] at h
    exact ⟨_, by rw [‹src.next = _›, h.1], h.2⟩
  · cases h

/-- Requests one after the other. -/
theorem ByteSource.skip_add (m n : Nat) (src : ByteSource) : src.skip (m + n) = (src.skip m).skip n := by
  induction m generalizing src with
  | zero => simp
  | succ m ih =>
    cases h : src.next with
    | none => simp [skip_of_none h]
    | some p => rw [show m + 1 + n = (m + n) + 1 by omega, skip_of_next h, skip_of_next h, ih]

/-- The answers to requests one after the other, where the first of them are all answered. -/
theorem ByteSource.upcoming_add (m n : Nat) (src : ByteSource) (hm : (src.upcoming m).length = m) :
    src.upcoming (m + n) = src.upcoming m ++ (src.skip m).upcoming n := by
  induction m generalizing src with
  | zero => simp
  | succ m ih =>
    cases h : src.next with
    | none => simp [upcoming_of_none h] at hm
    | some p =>
      rw [upcoming_of_next h] at hm
      rw [show m + 1 + n = (m + n) + 1 by omega, upcoming_of_next h, upcoming_of_next h, skip_of_next h,
        ih _ (by simpa using hm), List.cons_append]

/-- Answers put before the others come first. -/
theorem ByteSource.upcoming_listed (l rest : List Answer) (e : SourceEnd) :
    ByteSource.upcoming l.length ⟨l ++ rest, e⟩ = l ∧ ByteSource.skip l.length ⟨l ++ rest, e⟩ = ⟨rest, e⟩ := by
  induction l with
  | nil => simp
  | cons a l ih => exact ⟨by simp [upcoming, ih.1], by simp [skip, ih.2]⟩

end Sys2Proof

namespace Sys2Proof.Machine

/-- Everything a request can get. -/
theorem srcNext_cases (s : State) :
    (s.srcShared = true ∧ srcNext s = .contended) ∨
    (s.srcShared = false ∧
      ((∃ b src, s.src.next = some (.byte b, src) ∧ srcNext s = .byte b { s with src := src, cursor := s.cursor + 1 }) ∨
       (∃ src, s.src.next = some (.exhausted, src) ∧ srcNext s = .exhausted { s with src := src }) ∨
       (∃ src, s.src.next = some (.wait, src) ∧ srcNext s = .waiting) ∨
       (s.src.next = none ∧ srcNext s = .waiting))) := by
  unfold srcNext
  rcases hs : s.srcShared with _ | _
  · rcases ha : s.src.next with _ | ⟨_ | _ | _, src⟩ <;> simp
  · simp

/-- A wait is over exactly where the source, driven by nobody else, has one next. -/
theorem afterWait_eq_some {s t : State} :
    afterWait s = some t ↔ s.srcShared = false ∧ ∃ src, s.src.next = some (.wait, src) ∧ t = { s with src := src } := by
  unfold afterWait
  rcases hs : s.srcShared with _ | _
  · rcases ha : s.src.next with _ | ⟨_ | _ | _, src⟩ <;> simp [eq_comm]
  · simp

/-! ### The control port -/

/-- Everything a pulse can do: nothing, or begin a decode, or leave the block blank. -/
theorem takePulse_cases (s : State) :
    (s.control = [] ∧ s.takePulse = s) ∨
    (∃ p, s.control = .start :: p ∧ s.phase = .idle ∧ s.takePulse = { s.blank with phase := .opc, control := p }) ∨
    (∃ q p, s.control = q :: p ∧ s.takePulse = { s with control := p } ∧ ¬ (q = .start ∧ s.phase = .idle)) ∨
    (∃ q p, s.control = q :: p ∧ s.takePulse = { s.blank with control := p } ∧ ¬ (q = .start ∧ s.phase = .idle)) := by
  unfold State.takePulse State.begin State.acknowledge State.resetBlock
  rcases hc : s.control with _ | ⟨_ | _ | _, p⟩ <;> rcases hp : s.phase with _ | _ | _ | _ | _ <;> simp [State.blank]

/-! ### The wires -/

theorem State.busy_eq_true {s : State} : s.busy = true ↔ s.phase = .opc ∨ s.phase = .opr1 ∨ s.phase = .opr2 := by
  unfold State.busy; cases s.phase <;> simp

theorem State.busy_eq_false {s : State} : s.busy = false ↔ s.phase = .idle ∨ s.phase = .done := by
  unfold State.busy; cases s.phase <;> simp

theorem State.done_eq_true {s : State} : s.done = true ↔ s.phase = .done := by
  unfold State.done; cases s.phase <;> simp

@[simp] theorem State.presentedCall_deliver (c : Call) (s : State) : (s.deliver c).presentedCall = some c := rfl
@[simp] theorem State.presentedError_deliver (c : Call) (s : State) : (s.deliver c).presentedError = none := rfl
@[simp] theorem State.presentedCall_raise (e : DecodeError) (s : State) : (s.raise e).presentedCall = none := rfl
@[simp] theorem State.presentedResult_raise (e : DecodeError) (s : State) : (s.raise e).presentedResult = none := rfl
@[simp] theorem State.presentedError_raise (e : DecodeError) (s : State) : (s.raise e).presentedError = some e := rfl
@[simp] theorem State.done_deliver (c : Call) (s : State) : (s.deliver c).done = true := rfl
@[simp] theorem State.done_raise (e : DecodeError) (s : State) : (s.raise e).done = true := rfl
@[simp] theorem State.busy_deliver (c : Call) (s : State) : (s.deliver c).busy = false := rfl
@[simp] theorem State.busy_raise (e : DecodeError) (s : State) : (s.raise e).busy = false := rfl

/-- The answer on the result port is that of the operation named, offered after the calls made before. -/
@[simp] theorem State.presentedResult_deliver (c : Call) (s : State) :
    (s.deliver c).presentedResult = answerTo (Config.consumer.ops s.calls) c := by
  simp [State.presentedResult]

/-- The call of an instruction is answered by the operation the instruction selects. -/
theorem answerTo_of_call {Out : Type} (ci : InstrInterpreter Out) {i : Instr} {c : Call} (h : i.call = some c) :
    answerTo ci c = invoke ci i := by
  cases i <;> simp [Instr.call] at h <;> subst h <;> rfl

end Sys2Proof.Machine
end

