-- ==== Sys2Proof/Laws/PerInstr.lean ====
section
/-! SUPPORT. The per-instruction family EncodedRow: the opcode byte of an encoded instruction stands in the table row of its
own mnemonic and mode (30_encoding.md R80, R88, R90). It is about the instruction as syntax and its encoding. -/

namespace Sys2Proof

/-- The table row an instruction stands for. -/
def Instr.row (i : Instr) : Entry :=
  match i.call with
  | some c => .defined c.mnem ((c.arg.map Arg.mode).getD .implied)
  | none => .undefined

namespace Laws.EncodedRow

/-- The words of a well-formed instruction are an opcode byte, whose row in the ROM is the instruction's own, and then the
instruction's operand bytes. -/
def Statement (i : Instr) : Prop :=
  i.wf = true → ∃ op : Byte, encode i = op :: i.operandBytes ∧ lookup opcodeRom op = some i.row

/-- Every one of the 105 bytes stands in an Undefined row. -/
theorem undefined_rows : (undefinedBytes.all fun b => lookup opcodeRom b == some .undefined) = true := by decide +kernel

/-- Every opcode the encoder uses stands in its own row. -/
theorem opcode_rows : (Mnemonic.all.all fun m => Mode.all.all fun mode =>
    (m.opcode mode).all fun op => lookup opcodeRom op == some (.defined m mode)) = true := by
  decide +kernel

/-- An instruction whose mnemonic has an opcode in its mode meets the statement. -/
theorem of_opcode {i : Instr} {m : Mnemonic} {mode : Mode} (hr : i.row = .defined m mode) (hi : i.opcode = m.opcode mode)
    (hs : (m.opcode mode).isSome = true) : Statement i := by
  obtain ⟨op, ho⟩ := Option.isSome_iff_exists.mp hs
  have hm : m ∈ Mnemonic.all := by cases m <;> simp [Mnemonic.all]
  have hmode : mode ∈ Mode.all := by cases mode <;> simp [Mode.all]
  have hrow := List.all_eq_true.mp (List.all_eq_true.mp opcode_rows m hm) mode hmode
  exact fun _ => ⟨op, by simp [encode, hi, ho], by simpa [ho, hr] using hrow⟩

theorem adc (a : Arg) : Statement (.adc a) := by
  cases a <;> first | exact fun h => absurd h Bool.false_ne_true | exact of_opcode (m := .ADC) rfl rfl rfl
theorem and (a : Arg) : Statement (.and a) := by
  cases a <;> first | exact fun h => absurd h Bool.false_ne_true | exact of_opcode (m := .AND) rfl rfl rfl
theorem asl (a : Arg) : Statement (.asl a) := by
  cases a <;> first | exact fun h => absurd h Bool.false_ne_true | exact of_opcode (m := .ASL) rfl rfl rfl
theorem bcc (a : Arg) : Statement (.bcc a) := by
  cases a <;> first | exact fun h => absurd h Bool.false_ne_true | exact of_opcode (m := .BCC) rfl rfl rfl
theorem bcs (a : Arg) : Statement (.bcs a) := by
  cases a <;> first | exact fun h => absurd h Bool.false_ne_true | exact of_opcode (m := .BCS) rfl rfl rfl
theorem beq (a : Arg) : Statement (.beq a) := by
  cases a <;> first | exact fun h => absurd h Bool.false_ne_true | exact of_opcode (m := .BEQ) rfl rfl rfl
theorem bit (a : Arg) : Statement (.bit a) := by
  cases a <;> first | exact fun h => absurd h Bool.false_ne_true | exact of_opcode (m := .BIT) rfl rfl rfl
theorem bmi (a : Arg) : Statement (.bmi a) := by
  cases a <;> first | exact fun h => absurd h Bool.false_ne_true | exact of_opcode (m := .BMI) rfl rfl rfl
theorem bne (a : Arg) : Statement (.bne a) := by
  cases a <;> first | exact fun h => absurd h Bool.false_ne_true | exact of_opcode (m := .BNE) rfl rfl rfl
theorem bpl (a : Arg) : Statement (.bpl a) := by
  cases a <;> first | exact fun h => absurd h Bool.false_ne_true | exact of_opcode (m := .BPL) rfl rfl rfl
theorem brk : Statement .brk := of_opcode (m := .BRK) (mode := .implied) rfl rfl rfl
theorem bvc (a : Arg) : Statement (.bvc a) := by
  cases a <;> first | exact fun h => absurd h Bool.false_ne_true | exact of_opcode (m := .BVC) rfl rfl rfl
theorem bvs (a : Arg) : Statement (.bvs a) := by
  cases a <;> first | exact fun h => absurd h Bool.false_ne_true | exact of_opcode (m := .BVS) rfl rfl rfl
theorem clc : Statement .clc := of_opcode (m := .CLC) (mode := .implied) rfl rfl rfl
theorem cld : Statement .cld := of_opcode (m := .CLD) (mode := .implied) rfl rfl rfl
theorem cli : Statement .cli := of_opcode (m := .CLI) (mode := .implied) rfl rfl rfl
theorem clv : Statement .clv := of_opcode (m := .CLV) (mode := .implied) rfl rfl rfl
theorem cmp (a : Arg) : Statement (.cmp a) := by
  cases a <;> first | exact fun h => absurd h Bool.false_ne_true | exact of_opcode (m := .CMP) rfl rfl rfl
theorem cpx (a : Arg) : Statement (.cpx a) := by
  cases a <;> first | exact fun h => absurd h Bool.false_ne_true | exact of_opcode (m := .CPX) rfl rfl rfl
theorem cpy (a : Arg) : Statement (.cpy a) := by
  cases a <;> first | exact fun h => absurd h Bool.false_ne_true | exact of_opcode (m := .CPY) rfl rfl rfl
theorem dec (a : Arg) : Statement (.dec a) := by
  cases a <;> first | exact fun h => absurd h Bool.false_ne_true | exact of_opcode (m := .DEC) rfl rfl rfl
theorem dex : Statement .dex := of_opcode (m := .DEX) (mode := .implied) rfl rfl rfl
theorem dey : Statement .dey := of_opcode (m := .DEY) (mode := .implied) rfl rfl rfl
theorem eor (a : Arg) : Statement (.eor a) := by
  cases a <;> first | exact fun h => absurd h Bool.false_ne_true | exact of_opcode (m := .EOR) rfl rfl rfl
theorem inc (a : Arg) : Statement (.inc a) := by
  cases a <;> first | exact fun h => absurd h Bool.false_ne_true | exact of_opcode (m := .INC) rfl rfl rfl
theorem inx : Statement .inx := of_opcode (m := .INX) (mode := .implied) rfl rfl rfl
theorem iny : Statement .iny := of_opcode (m := .INY) (mode := .implied) rfl rfl rfl
theorem jmp (a : Arg) : Statement (.jmp a) := by
  cases a <;> first | exact fun h => absurd h Bool.false_ne_true | exact of_opcode (m := .JMP) rfl rfl rfl
theorem jsr (a : Arg) : Statement (.jsr a) := by
  cases a <;> first | exact fun h => absurd h Bool.false_ne_true | exact of_opcode (m := .JSR) rfl rfl rfl
theorem lda (a : Arg) : Statement (.lda a) := by
  cases a <;> first | exact fun h => absurd h Bool.false_ne_true | exact of_opcode (m := .LDA) rfl rfl rfl
theorem ldx (a : Arg) : Statement (.ldx a) := by
  cases a <;> first | exact fun h => absurd h Bool.false_ne_true | exact of_opcode (m := .LDX) rfl rfl rfl
theorem ldy (a : Arg) : Statement (.ldy a) := by
  cases a <;> first | exact fun h => absurd h Bool.false_ne_true | exact of_opcode (m := .LDY) rfl rfl rfl
theorem lsr (a : Arg) : Statement (.lsr a) := by
  cases a <;> first | exact fun h => absurd h Bool.false_ne_true | exact of_opcode (m := .LSR) rfl rfl rfl
theorem nop : Statement .nop := of_opcode (m := .NOP) (mode := .implied) rfl rfl rfl
theorem ora (a : Arg) : Statement (.ora a) := by
  cases a <;> first | exact fun h => absurd h Bool.false_ne_true | exact of_opcode (m := .ORA) rfl rfl rfl
theorem pha : Statement .pha := of_opcode (m := .PHA) (mode := .implied) rfl rfl rfl
theorem php : Statement .php := of_opcode (m := .PHP) (mode := .implied) rfl rfl rfl
theorem pla : Statement .pla := of_opcode (m := .PLA) (mode := .implied) rfl rfl rfl
theorem plp : Statement .plp := of_opcode (m := .PLP) (mode := .implied) rfl rfl rfl
theorem rol (a : Arg) : Statement (.rol a) := by
  cases a <;> first | exact fun h => absurd h Bool.false_ne_true | exact of_opcode (m := .ROL) rfl rfl rfl
theorem ror (a : Arg) : Statement (.ror a) := by
  cases a <;> first | exact fun h => absurd h Bool.false_ne_true | exact of_opcode (m := .ROR) rfl rfl rfl
theorem rti : Statement .rti := of_opcode (m := .RTI) (mode := .implied) rfl rfl rfl
theorem rts : Statement .rts := of_opcode (m := .RTS) (mode := .implied) rfl rfl rfl
theorem sbc (a : Arg) : Statement (.sbc a) := by
  cases a <;> first | exact fun h => absurd h Bool.false_ne_true | exact of_opcode (m := .SBC) rfl rfl rfl
theorem sec : Statement .sec := of_opcode (m := .SEC) (mode := .implied) rfl rfl rfl
theorem sed : Statement .sed := of_opcode (m := .SED) (mode := .implied) rfl rfl rfl
theorem sei : Statement .sei := of_opcode (m := .SEI) (mode := .implied) rfl rfl rfl
theorem sta (a : Arg) : Statement (.sta a) := by
  cases a <;> first | exact fun h => absurd h Bool.false_ne_true | exact of_opcode (m := .STA) rfl rfl rfl
theorem stx (a : Arg) : Statement (.stx a) := by
  cases a <;> first | exact fun h => absurd h Bool.false_ne_true | exact of_opcode (m := .STX) rfl rfl rfl
theorem sty (a : Arg) : Statement (.sty a) := by
  cases a <;> first | exact fun h => absurd h Bool.false_ne_true | exact of_opcode (m := .STY) rfl rfl rfl
theorem tax : Statement .tax := of_opcode (m := .TAX) (mode := .implied) rfl rfl rfl
theorem tay : Statement .tay := of_opcode (m := .TAY) (mode := .implied) rfl rfl rfl
theorem tsx : Statement .tsx := of_opcode (m := .TSX) (mode := .implied) rfl rfl rfl
theorem txa : Statement .txa := of_opcode (m := .TXA) (mode := .implied) rfl rfl rfl
theorem txs : Statement .txs := of_opcode (m := .TXS) (mode := .implied) rfl rfl rfl
theorem tya : Statement .tya := of_opcode (m := .TYA) (mode := .implied) rfl rfl rfl
theorem undefined (b : Byte) : Statement (.undefined b) := fun h =>
  ⟨b, rfl, by
    show lookup opcodeRom b = some .undefined
    simpa using List.all_eq_true.mp undefined_rows b (by simpa [Instr.wf] using h)⟩

end Laws.EncodedRow

end Sys2Proof
end

