-- ==== Sys2Proof/Laws/Sequencer.lean ====
section
/-! SUPPORT. What the dispatcher and the sequencer can do, said once. -/

namespace Sys2Proof.Machine

/-- An instruction with a call delivers that call. -/
theorem exec_of_call {i : Instr} {c : Call} (h : i.call = some c) (s : State) : exec i s = .next (s.deliver c) := by
  cases i <;> simp [Instr.call] at h <;> subst h <;> rfl

/-- An Undefined opcode raises its error. -/
@[simp] theorem exec_undefined (b : Byte) (s : State) : exec (.undefined b) s = .next (s.raise (.undefinedOpcode b)) := rfl

/-- Everything a dispatch can do: raise the Undefined opcode, or deliver one call. -/
theorem exec_cases (i : Instr) (s : State) :
    (∃ b, i = .undefined b ∧ exec i s = .next (s.raise (.undefinedOpcode b))) ∨
    (∃ c, i.call = some c ∧ exec i s = .next (s.deliver c)) := by
  cases hc : i.call with
  | none => cases i <;> simp [Instr.call] at hc; exact .inl ⟨_, rfl, rfl⟩
  | some c => exact .inr ⟨c, rfl, exec_of_call hc s⟩

/-- `complete` answers a next state only by dispatching the instruction latched. -/
theorem complete_next {s t : State} (h : complete s = .next t) : ∃ i, latchedInstr s = some i ∧ exec i s = .next t := by
  unfold complete at h
  split at h
  · exact ⟨_, ‹_›, h⟩
  · cases h

/-- `readMore` answers a next state only by waiting for a further byte or by dispatching. -/
theorem readMore_next {k : Nat} {p : Phase} {s t : State} (h : readMore k p s = .next t) :
    ∃ e, s.ent = some e ∧ ((k < operandCount e ∧ t = { s with phase := p }) ∨ (operandCount e ≤ k ∧ complete s = .next t)) := by
  unfold readMore at h
  split at h
  · refine ⟨_, ‹_›, ?_⟩
    split at h
    · exact .inl ⟨‹_›, by simpa using h.symm⟩
    · exact .inr ⟨by omega, h⟩
  · cases h

/-- With an operand byte still to come, the next phase is entered. -/
theorem readMore_of_lt {k : Nat} {p : Phase} {s : State} {e : Entry} (he : s.ent = some e) (h : k < operandCount e) :
    readMore k p s = .next { s with phase := p } := by
  simp [readMore, he, h]

/-- With every operand byte there, the instruction is dispatched. -/
theorem readMore_of_le {k : Nat} {p : Phase} {s : State} {e : Entry} (he : s.ent = some e) (h : operandCount e ≤ k) :
    readMore k p s = complete s := by
  simp [readMore, he, Nat.not_lt.mpr h]

/-- `fetchThen` answers a next state only by going on with a byte or by raising `StreamExhausted`. -/
theorem fetchThen_next {k : Byte → State → StepOutcome} {s t : State} (h : fetchThen k s = .next t) :
    s.srcShared = false ∧
    ((∃ b src, s.src.next = some (.byte b, src) ∧ k b { s with src := src, cursor := s.cursor + 1 } = .next t) ∨
     (∃ src, s.src.next = some (.exhausted, src) ∧ t = State.raise .streamExhausted { s with src := src })) := by
  unfold fetchThen at h
  rcases srcNext_cases s with ⟨_, hn⟩ | ⟨hs, ⟨b, src, ha, hn⟩ | ⟨src, ha, hn⟩ | ⟨src, ha, hn⟩ | ⟨ha, hn⟩⟩ <;> simp [hn] at h
  · exact ⟨hs, .inl ⟨b, src, ha, h⟩⟩
  · exact ⟨hs, .inr ⟨src, ha, h.symm⟩⟩

/-- What every dispatch and every request leaves alone. -/
structure Untouched (s t : State) : Prop where
  rom : t.rom = s.rom
  srcShared : t.srcShared = s.srcShared
  control : t.control = s.control
  moment : t.moment = s.moment

theorem Untouched.refl (s : State) : Untouched s s := ⟨rfl, rfl, rfl, rfl⟩

theorem Untouched.trans {s t u : State} (h : Untouched s t) (k : Untouched t u) : Untouched s u :=
  ⟨k.rom.trans h.rom, k.srcShared.trans h.srcShared, k.control.trans h.control, k.moment.trans h.moment⟩

/-- How at most `n` requests move the source: by so many answers, and the cursor by the bytes among them. -/
structure Consumed (n : Nat) (s t : State) : Prop where
  untouched : Untouched s t
  answers : ∃ m, m ≤ n ∧ (s.src.upcoming m).length = m ∧ t.src = s.src.skip m ∧
    t.cursor = s.cursor + (s.src.upcoming m).countP fun a => a matches .byte _

theorem Consumed.refl (n : Nat) (s : State) : Consumed n s s := ⟨.refl s, 0, by simp⟩

theorem Consumed.trans {m n : Nat} {s t u : State} (h : Consumed m s t) (k : Consumed n t u) : Consumed (m + n) s u := by
  obtain ⟨p, hp, hl, hs, hc⟩ := h.answers
  obtain ⟨q, kq, kl, ks, kc⟩ := k.answers
  rw [hs] at kl ks kc
  refine ⟨h.untouched.trans k.untouched, p + q, by omega, ?_, ?_, ?_⟩
  · rw [ByteSource.upcoming_add _ _ _ hl, List.length_append, hl, kl]
  · rw [ByteSource.skip_add, ks]
  · rw [ByteSource.upcoming_add _ _ _ hl, List.countP_append, kc, hc, Nat.add_assoc]

/-- One answer taken. -/
theorem Consumed.one {s t : State} {a : Answer} (hu : Untouched s t) (h : s.src.next = some (a, t.src))
    (hc : t.cursor = s.cursor + [a].countP fun a => a matches .byte _) : Consumed 1 s t :=
  ⟨hu, 1, Nat.le_refl 1, by simp [ByteSource.upcoming_of_next h], by simp [ByteSource.skip_of_next h],
    by simpa [ByteSource.upcoming_of_next h] using hc⟩

theorem exec_consumed {i : Instr} {s t : State} (h : exec i s = .next t) : Consumed 0 s t := by
  rcases exec_cases i s with ⟨b, -, he⟩ | ⟨c, -, he⟩ <;> rw [he] at h <;> cases h <;>
    exact ⟨⟨rfl, rfl, rfl, rfl⟩, 0, by simp⟩

theorem complete_consumed {s t : State} (h : complete s = .next t) : Consumed 0 s t := by
  obtain ⟨i, -, he⟩ := complete_next h
  exact exec_consumed he

theorem readMore_consumed {k : Nat} {p : Phase} {s t : State} (h : readMore k p s = .next t) : Consumed 0 s t := by
  obtain ⟨e, -, ⟨-, rfl⟩ | ⟨-, hc⟩⟩ := readMore_next h
  · exact ⟨⟨rfl, rfl, rfl, rfl⟩, 0, by simp⟩
  · exact complete_consumed hc

/-- One request takes at most one answer. -/
theorem tick_consumed {s t : State} (h : tick s = .next t) : Consumed 1 s t := by
  have go : ∀ k : Byte → State → StepOutcome, (∀ b u v, k b u = .next v → Consumed 0 u v) →
      fetchThen k s = .next t → Consumed 1 s t := by
    intro k hk hf
    obtain ⟨-, ⟨b, src, ha, hb⟩ | ⟨src, ha, rfl⟩⟩ := fetchThen_next hf
    · have first : Consumed 1 s { s with src := src, cursor := s.cursor + 1 } := .one ⟨rfl, rfl, rfl, rfl⟩ ha (by simp)
      exact first.trans (hk _ _ _ hb)
    · exact .one ⟨rfl, rfl, rfl, rfl⟩ ha (by simp)
  unfold tick at h
  split at h
  · cases h; exact .refl 1 s
  · cases h; exact .refl 1 s
  · refine go _ (fun b u v hb => ?_) h
    unfold afterOpcode at hb
    split at hb
    · obtain ⟨hu, ha⟩ := readMore_consumed hb
      exact ⟨⟨hu.rom, hu.srcShared, hu.control, hu.moment⟩, ha⟩
    · cases hb
  · refine go _ (fun b u v hb => ?_) h
    obtain ⟨hu, ha⟩ := readMore_consumed hb
    exact ⟨⟨hu.rom, hu.srcShared, hu.control, hu.moment⟩, ha⟩
  · refine go _ (fun b u v hb => ?_) h
    obtain ⟨hu, ha⟩ := complete_consumed hb
    exact ⟨⟨hu.rom, hu.srcShared, hu.control, hu.moment⟩, ha⟩

@[simp] theorem afterRequest_of_next (k : State → StepOutcome) (s u : State) : afterRequest k s (.next u) = k u := rfl

/-- What follows a request answers a next state only by going on, or by stopping where the source did not answer. -/
theorem afterRequest_next {k : State → StepOutcome} {s t : State} {o : StepOutcome} (h : afterRequest k s o = .next t) :
    (∃ u, o = .next u ∧ k u = .next t) ∨ (o = .fault .sourceSuspended ∧ t = s) := by
  unfold afterRequest at h
  split at h
  · exact .inl ⟨_, rfl, h⟩
  · cases h; exact .inr ⟨rfl, rfl⟩
  all_goals cases h

@[simp] theorem decodeOn_of_not_busy {n : Nat} {s : State} (h : s.busy = false) : decodeOn n s = .next s := by
  cases n <;> simp [decodeOn, h]

/-- A request is made where the decode is in progress and the source is not in a wait. -/
theorem decodeOn_busy {n : Nat} {s : State} (hb : s.busy = true) (hw : afterWait s = none) :
    decodeOn (n + 1) s = afterRequest (decodeOn n) s (tick s) := by
  simp [decodeOn, hb, hw]

/-- A dispatch ends the decode, whatever would have followed. -/
@[simp] theorem afterRequest_exec (n : Nat) (s u : State) (i : Instr) : afterRequest (decodeOn n) s (exec i u) = exec i u := by
  rcases exec_cases i u with ⟨b, -, h⟩ | ⟨c, -, h⟩ <;> rw [h] <;> exact decodeOn_of_not_busy rfl

/-- Everything going on with a decode can do when it answers a next state: nothing, the end of a wait, or one request and more. -/
theorem decodeOn_next {n : Nat} {s t : State} (h : decodeOn n s = .next t) :
    t = s ∨ (s.busy = true ∧ afterWait s = some t ∧ 0 < n) ∨
      (∃ m u, n = m + 1 ∧ s.busy = true ∧ afterWait s = none ∧ tick s = .next u ∧ decodeOn m u = .next t) := by
  cases n with
  | zero => simp only [decodeOn] at h; cases h; exact .inl rfl
  | succ m =>
    simp only [decodeOn] at h
    split at h
    · split at h
      · cases h; exact .inr (.inl ⟨‹_›, ‹_›, by omega⟩)
      · obtain ⟨u, hu, hm⟩ | ⟨-, rfl⟩ := afterRequest_next h
        · exact .inr (.inr ⟨m, u, rfl, ‹_›, ‹_›, hu, hm⟩)
        · exact .inl rfl
    · cases h; exact .inl rfl

/-- A property that waiting and every request keep is kept by a decode. -/
theorem decodeOn_keeps {P : State → Prop} (hw : ∀ s t, afterWait s = some t → P s → P t)
    (ht : ∀ s t, tick s = .next t → P s → P t) : ∀ (n : Nat) {s t : State}, decodeOn n s = .next t → P s → P t
  | n, s, t, h, hs => by
    rcases decodeOn_next h with rfl | ⟨-, ha, -⟩ | ⟨m, u, rfl, -, -, hu, hm⟩
    · exact hs
    · exact hw _ _ ha hs
    · exact decodeOn_keeps hw ht m hm (ht _ _ hu hs)

/-- Where going on without a pulse answers a next state, it is the decode going on. -/
theorem continueStep_next {s t : State} (h : continueStep s = .next t) : decodeOn 3 s = .next t := by
  unfold continueStep at h
  rw [decodeOn]
  split at h
  · rw [if_pos ‹_›]
    cases hw : afterWait s with
    | some u => simpa [hw] using h
    | none => cases ht : tick s <;> simp_all [afterRequest]
  · rw [if_neg ‹_›]; exact h

/-- A step with no pulse to take. -/
theorem step_of_no_pulse {s : State} (h : s.control = []) : step s = continueStep s.nextMoment := by simp [step, runStep, h]

/-- A step with a pulse to take. -/
theorem step_of_pulse {s : State} {q : Pulse} {p : List Pulse} (h : s.control = q :: p) :
    step s = decodeOn 3 s.nextMoment.takePulse := by simp [step, runStep, h]

/-- Everything a step can do when it answers a next state: take a pulse, if there is one, and decode on. -/
theorem step_next {s t : State} (h : step s = .next t) : decodeOn 3 s.nextMoment.takePulse = .next t := by
  cases hc : s.control with
  | nil =>
    rw [step_of_no_pulse hc] at h
    simpa only [State.takePulse, State.nextMoment_control, hc] using continueStep_next h
  | cons q p => rwa [step_of_pulse hc] at h

end Sys2Proof.Machine
end

