-- ==== Sys2Proof/Tests/Slice0.lean ====
section
/-! SUPPORT. Tests against 95_test_vectors.md and against encodings written out from 30_encoding.md, the smoke test of
well-formedness, and a witness for every statement that has hypotheses. -/

open Sys2Proof Sys2Proof.Machine

namespace Sys2Proof.Tests

/-! ### Helpers -/

/-- After reset, with a `start` given and a source that gives these bytes and then `StreamExhausted`. -/
def ready (bs : List Byte) : State :=
  { State.reset with src := ⟨bs.map .byte, .exhausted⟩, control := [.start] }

/-- The same with a source that stays silent after these bytes. -/
def readySuspended (bs : List Byte) : State := { ready bs with src := ⟨bs.map .byte, .suspended⟩ }

/-- In OPC with an empty source that stays silent. -/
def stuck : State := { State.reset with phase := .opc }

/-- The state after one step. -/
def after (s : State) : Option State :=
  match step s with
  | .next t => some t
  | .fault _ | .refused _ => none

/-- The step answers a next state. -/
def goesOn (s : State) : Bool := (after s).isSome

theorem exists_next {s : State} (h : goesOn s = true) : ∃ t, step s = .next t := by
  unfold goesOn after at h
  split at h
  · exact ⟨_, ‹_›⟩
  all_goals cases h

/-- Every listed byte list decodes to its instruction and leaves nothing over. -/
def decodesTo (l : List (List Byte × Instr)) : Bool := l.all fun p => decode p.1 == .ok (p.2, [])

/-! ### Well-formedness -/

/-- An ill-formed term for each check of `Instr.wf`: a mode its family rule does not list, or a byte that is Defined. -/
theorem test_ill_formed_refused :
    ([.adc .accumulator, .and .implied, .asl (.immediate 0), .bcc (.absolute 0), .bcs .implied, .beq (.zeroPage 0),
      .bit (.immediate 0), .bmi (.absolute 0), .bne .accumulator, .bpl (.immediate 0), .bvc (.absolute 0), .bvs .implied,
      .cmp (.zeroPageY 0), .cpx (.zeroPageX 0), .cpy (.absoluteX 0), .dec .accumulator, .eor (.relative 0),
      .inc .accumulator, .jmp (.relative 0), .jsr (.indirect 0), .lda (.zeroPageY 0), .ldx (.zeroPageX 0),
      .ldy (.zeroPageY 0), .lsr (.absoluteY 0), .ora (.indirect 0), .rol (.immediate 0), .ror .implied,
      .sbc .accumulator, .sta (.immediate 0), .stx (.absoluteY 0), .sty (.absoluteX 0), .undefined 0xA9] : List Instr).all
      (fun i => !i.wf) = true := by decide +kernel

/-- Well-formed terms are accepted. -/
theorem test_well_formed_accepted :
    ([.lda (.immediate 0x7F), .ldx (.zeroPageY 0), .jmp (.indirect 0xFFFC), .asl .accumulator, .brk, .undefined 0x02] : List
      Instr).all Instr.wf = true := by decide +kernel

/-! ### The table -/

/-- All 256 ROM words, from 95_test_vectors.md table L2.9. -/
def romOfL29 : List (List RomWord) :=
  [
    [0x4A0, 0x62A, 0x000, 0x000, 0x000, 0x623, 0x423, 0x000, 0x640, 0x622, 0x421, 0x000, 0x000, 0x626, 0x426, 0x000],
    [0x49C, 0x62B, 0x000, 0x000, 0x000, 0x624, 0x424, 0x000, 0x4D0, 0x628, 0x000, 0x000, 0x000, 0x627, 0x427, 0x000],
    [0x5C6, 0x41A, 0x000, 0x000, 0x463, 0x413, 0x673, 0x000, 0x660, 0x412, 0x671, 0x000, 0x466, 0x416, 0x676, 0x000],
    [0x47C, 0x41B, 0x000, 0x000, 0x000, 0x414, 0x674, 0x000, 0x6C0, 0x418, 0x000, 0x000, 0x000, 0x417, 0x677, 0x000],
    [0x690, 0x57A, 0x000, 0x000, 0x000, 0x573, 0x603, 0x000, 0x630, 0x572, 0x601, 0x000, 0x5B6, 0x576, 0x606, 0x000],
    [0x4BC, 0x57B, 0x000, 0x000, 0x000, 0x574, 0x604, 0x000, 0x4F0, 0x578, 0x000, 0x000, 0x000, 0x577, 0x607, 0x000],
    [0x6A0, 0x40A, 0x000, 0x000, 0x000, 0x403, 0x683, 0x000, 0x650, 0x402, 0x681, 0x000, 0x5B9, 0x406, 0x686, 0x000],
    [0x4CC, 0x40B, 0x000, 0x000, 0x000, 0x404, 0x684, 0x000, 0x6E0, 0x408, 0x000, 0x000, 0x000, 0x407, 0x687, 0x000],
    [0x000, 0x6FA, 0x000, 0x000, 0x713, 0x6F3, 0x703, 0x000, 0x560, 0x000, 0x750, 0x000, 0x716, 0x6F6, 0x706, 0x000],
    [0x43C, 0x6FB, 0x000, 0x000, 0x714, 0x6F4, 0x705, 0x000, 0x770, 0x6F8, 0x760, 0x000, 0x000, 0x6F7, 0x000, 0x000],
    [0x5F2, 0x5DA, 0x5E2, 0x000, 0x5F3, 0x5D3, 0x5E3, 0x000, 0x730, 0x5D2, 0x720, 0x000, 0x5F6, 0x5D6, 0x5E6, 0x000],
    [0x44C, 0x5DB, 0x000, 0x000, 0x5F4, 0x5D4, 0x5E5, 0x000, 0x500, 0x5D8, 0x740, 0x000, 0x5F7, 0x5D7, 0x5E8, 0x000],
    [0x532, 0x51A, 0x000, 0x000, 0x533, 0x513, 0x543, 0x000, 0x5A0, 0x512, 0x550, 0x000, 0x536, 0x516, 0x546, 0x000],
    [0x48C, 0x51B, 0x000, 0x000, 0x000, 0x514, 0x544, 0x000, 0x4E0, 0x518, 0x000, 0x000, 0x000, 0x517, 0x547, 0x000],
    [0x522, 0x6BA, 0x000, 0x000, 0x523, 0x6B3, 0x583, 0x000, 0x590, 0x6B2, 0x610, 0x000, 0x526, 0x6B6, 0x586, 0x000],
    [0x45C, 0x6BB, 0x000, 0x000, 0x000, 0x6B4, 0x584, 0x000, 0x6D0, 0x6B8, 0x000, 0x000, 0x000, 0x6B7, 0x587, 0x000]]

theorem test_rom_words : opcodeRom = romOfL29.flatten := by decide +kernel

/-- The counts of 30_encoding.md R89: 151 Defined entries, 105 Undefined, and the opcodes of each mode. -/
theorem test_table_counts :
    (opcodeTable.countP fun e => e != .undefined) = 151 ∧ (opcodeTable.countP fun e => e == .undefined) = 105 ∧
      (Mode.all.map fun mode => opcodeTable.countP fun e =>
        match e with
        | .defined _ m => m == mode
        | .undefined => false) = [25, 4, 11, 21, 16, 2, 23, 15, 9, 1, 8, 8, 8] := by decide +kernel

/-! ### Decoding, one or more words of every constructor (L1, L2.5 to L2.8) -/

theorem test_decode_load_store : decodesTo
    [([0xA9, 0x00], .lda (.immediate 0x00)),
      ([0xB1, 0x80], .lda (.indirectIndexed 0x80)),
      ([0xA2, 0xFF], .ldx (.immediate 0xFF)),
      ([0xB6, 0x10], .ldx (.zeroPageY 0x10)),
      ([0xBE, 0x00, 0x30], .ldx (.absoluteY 0x3000)),
      ([0xA0, 0x01], .ldy (.immediate 0x01)),
      ([0xBC, 0x00, 0x30], .ldy (.absoluteX 0x3000)),
      ([0x81, 0x20], .sta (.indexedIndirect 0x20)),
      ([0x99, 0x00, 0x02], .sta (.absoluteY 0x0200)),
      ([0x96, 0xFF], .stx (.zeroPageY 0xFF)),
      ([0x94, 0xFF], .sty (.zeroPageX 0xFF))] = true := by decide +kernel

theorem test_decode_alu : decodesTo
    [([0x69, 0x01], .adc (.immediate 0x01)),
      ([0x7D, 0xFF, 0xFF], .adc (.absoluteX 0xFFFF)),
      ([0xE9, 0x01], .sbc (.immediate 0x01)),
      ([0xF1, 0x44], .sbc (.indirectIndexed 0x44)),
      ([0x29, 0x0F], .and (.immediate 0x0F)),
      ([0x09, 0x80], .ora (.immediate 0x80)),
      ([0x41, 0x00], .eor (.indexedIndirect 0x00)),
      ([0xC9, 0x00], .cmp (.immediate 0x00)),
      ([0xE0, 0x10], .cpx (.immediate 0x10)),
      ([0xEC, 0x00, 0x10], .cpx (.absolute 0x1000)),
      ([0xC0, 0x10], .cpy (.immediate 0x10)),
      ([0x24, 0x10], .bit (.zeroPage 0x10)),
      ([0x2C, 0x00, 0x20], .bit (.absolute 0x2000))] = true := by decide +kernel

theorem test_decode_rmw : decodesTo
    [([0x0A], .asl .accumulator),
      ([0x0E, 0x00, 0x20], .asl (.absolute 0x2000)),
      ([0x4A], .lsr .accumulator),
      ([0x56, 0x10], .lsr (.zeroPageX 0x10)),
      ([0x2A], .rol .accumulator),
      ([0x6A], .ror .accumulator),
      ([0x7E, 0x00, 0x20], .ror (.absoluteX 0x2000)),
      ([0xE6, 0x10], .inc (.zeroPage 0x10)),
      ([0xFE, 0x00, 0x20], .inc (.absoluteX 0x2000)),
      ([0xC6, 0x10], .dec (.zeroPage 0x10))] = true := by decide +kernel

theorem test_decode_control : decodesTo
    [([0x4C, 0x00, 0x20], .jmp (.absolute 0x2000)),
      ([0x6C, 0xFC, 0xFF], .jmp (.indirect 0xFFFC)),
      ([0x20, 0x00, 0x20], .jsr (.absolute 0x2000)),
      ([0x60], .rts),
      ([0x40], .rti),
      ([0x00], .brk),
      ([0x10, 0xFE], .bpl (.relative (-2))),
      ([0x30, 0x7F], .bmi (.relative 127)),
      ([0x50, 0x80], .bvc (.relative (-128))),
      ([0x70, 0x00], .bvs (.relative 0)),
      ([0x90, 0x10], .bcc (.relative 16)),
      ([0xB0, 0xF0], .bcs (.relative (-16))),
      ([0xD0, 0xFD], .bne (.relative (-3))),
      ([0xF0, 0x02], .beq (.relative 2))] = true := by decide +kernel

theorem test_decode_implied : decodesTo
    [([0xE8], .inx),
      ([0xC8], .iny),
      ([0xCA], .dex),
      ([0x88], .dey),
      ([0xAA], .tax),
      ([0xA8], .tay),
      ([0x8A], .txa),
      ([0x98], .tya),
      ([0x9A], .txs),
      ([0xBA], .tsx),
      ([0x48], .pha),
      ([0x68], .pla),
      ([0x08], .php),
      ([0x28], .plp),
      ([0x18], .clc),
      ([0xD8], .cld),
      ([0x58], .cli),
      ([0xB8], .clv),
      ([0x38], .sec),
      ([0xF8], .sed),
      ([0x78], .sei),
      ([0xEA], .nop)] = true := by decide +kernel

theorem test_decode_undefined : decodesTo
    [([0x02], .undefined 0x02),
      ([0xFF], .undefined 0xFF),
      ([0x89], .undefined 0x89),
      ([0x9E], .undefined 0x9E),
      ([0x1A], .undefined 0x1A),
      ([0x80], .undefined 0x80)] = true := by decide +kernel

/-- What does not decode: nothing there, an operand cut short (L1.7, L2.4). -/
theorem test_decode_short :
    [[], [0xA9], [0xAD], [0xAD, 0x34], [0x4C, 0x34], [0xF0]].all (fun bs => decode bs == .error .streamExhausted) = true := by
  decide +kernel

/-- Bytes after the instruction are left over (L1.6, L1.8, L2.8). -/
theorem test_decode_leaves_rest :
    decode [0x02, 0xE8] = .ok (.undefined 0x02, [0xE8]) ∧ decode [0xE8, 0xFF] = .ok (.inx, [0xFF]) ∧
      decode [0x00, 0xEA] = .ok (.brk, [0xEA]) := by decide +kernel

/-- The host's numbering of an instruction's bits: the first byte least significant, missing operand bits 0. -/
theorem test_table_words :
    decodeTableWord 24 0x1234AD = some (.lda (.absolute 0x1234)) ∧ decodeTableWord 8 0xAD = some (.lda (.absolute 0)) ∧
      decodeTableWord 8 0x02 = some (.undefined 0x02) := by decide +kernel

/-! ### Operand assembly (table L2.1 and L2.2) -/

theorem test_read_operand :
    (Mode.all.map fun mode => argOf mode (some 0x12) (some 0x34)) =
      [some .implied, some .accumulator, some (.immediate 0x12), some (.zeroPage 0x12), some (.zeroPageX 0x12),
        some (.zeroPageY 0x12), some (.absolute 0x3412), some (.absoluteX 0x3412), some (.absoluteY 0x3412),
        some (.indirect 0x3412), some (.indexedIndirect 0x12), some (.indirectIndexed 0x12), some (.relative 18)] := by
  decide +kernel

theorem test_relative_corners :
    ([0x80, 0x7F, 0xFF, 0x00, 0xFE, 0x02].map fun b : Byte => (offsetOf b).toInt) = [-128, 127, -1, 0, -2, 2] := by
  decide +kernel

/-! ### The accept logic (L1.9, L2.3, L3.4) -/

/-- An Arg-Interpreter that overrides `immediate` and `relative` only. -/
def partialInterpreter : ArgInterpreter (Byte ⊕ Int8) where
  immediate v := .ok (.inl v)
  relative o := .ok (.inr o)

theorem test_accept_partial :
    accept (.immediate 0x7F) partialInterpreter = .ok (.inl 0x7F) ∧ accept (.relative (-2)) partialInterpreter = .ok (.inr (-2)) ∧
      accept (.absolute 0x2000) partialInterpreter = .error .unsupportedAddressingMode ∧
      accept .accumulator partialInterpreter = .error .unsupportedAddressingMode := ⟨rfl, rfl, rfl, rfl⟩

theorem test_strobes :
    ([.immediate 0x7F, .relative (-2), .absolute 0x2000, .accumulator].map strobesFor) = [0x0004, 0x1000, 0x0040, 0x0002] := by
  decide +kernel

/-! ### Whole decodes, as the ports show them (L1, L2.4) -/

/-- What the ports show in DONE after a dispatch. -/
structure DispatchView where
  call : Option Call
  mnem : BitVec 6
  hasArg : Bool
  payload : Addr
  errValid : Bool
  cursor : Nat
deriving DecidableEq

/-- What the ports show in DONE after an error, and how many calls were made. -/
structure ErrorView where
  error : Option DecodeError
  kind : BitVec 2
  info : Byte
  dispValid : Bool
  calls : Nat
  cursor : Nat
deriving DecidableEq

/-- The ports after one step, as those of a dispatch. -/
def dispatchPorts (s : State) : Option DispatchView :=
  (after s).map fun t => ⟨t.presentedCall, t.dispMnem, t.dispHasArg, t.argPayload, t.errValid, t.cursor⟩

/-- The ports after one step, as those of an error. -/
def errorPorts (s : State) : Option ErrorView :=
  (after s).map fun t => ⟨t.presentedError, t.errKind, t.errByte, t.dispValid, t.calls.length, t.cursor⟩

theorem test_ports_lda_immediate :
    dispatchPorts (ready [0xA9, 0x7F]) = some ⟨some ⟨.LDA, some (.immediate 0x7F)⟩, 29, true, 0x007F, false, 2⟩ := by
  decide +kernel

theorem test_ports_lda_absolute :
    dispatchPorts (ready [0xAD, 0x34, 0x12]) = some ⟨some ⟨.LDA, some (.absolute 0x1234)⟩, 29, true, 0x1234, false, 3⟩ := by
  decide +kernel

theorem test_ports_asl_accumulator :
    dispatchPorts (ready [0x0A]) = some ⟨some ⟨.ASL, some .accumulator⟩, 2, true, 0, false, 1⟩ := by decide +kernel

/-- The Relative payload is on the bus as the raw byte, zero-extended (10_state.md R35). -/
theorem test_ports_beq :
    dispatchPorts (ready [0xF0, 0xFE]) = some ⟨some ⟨.BEQ, some (.relative (-2))⟩, 5, true, 0x00FE, false, 2⟩ := by decide +kernel

theorem test_ports_inx : dispatchPorts (ready [0xE8, 0xFF]) = some ⟨some ⟨.INX, none⟩, 25, false, 0, false, 1⟩ := by decide +kernel

theorem test_ports_brk : dispatchPorts (ready [0x00, 0xFF]) = some ⟨some ⟨.BRK, none⟩, 10, false, 0, false, 1⟩ := by decide +kernel

theorem test_ports_nop : dispatchPorts (ready [0xEA]) = some ⟨some ⟨.NOP, none⟩, 33, false, 0, false, 1⟩ := by decide +kernel

theorem test_error_undefined :
    errorPorts (ready [0x02, 0xE8]) = some ⟨some (.undefinedOpcode 0x02), 2, 0x02, false, 0, 1⟩ ∧
      errorPorts (ready [0xFF, 0x00, 0x00]) = some ⟨some (.undefinedOpcode 0xFF), 2, 0xFF, false, 0, 1⟩ := by decide +kernel

theorem test_error_exhausted :
    errorPorts (ready []) = some ⟨some .streamExhausted, 1, 0, false, 0, 0⟩ ∧
      errorPorts (ready [0xA9]) = some ⟨some .streamExhausted, 1, 0, false, 0, 1⟩ ∧
      errorPorts (ready [0x4C, 0x34]) = some ⟨some .streamExhausted, 1, 0, false, 0, 2⟩ := by decide +kernel

/-- The consumer's answer is the one of the operation selected, unchanged. -/
theorem test_result_lda :
    (after (ready [0xA9, 0x7F])).map State.result = some ((Config.consumer.ops []).lda (.immediate 0x7F)) := by rfl

theorem test_result_rts : (State.reset.deliver ⟨.RTS, none⟩).result = (Config.consumer.ops []).rts := rfl

/-- A source that never ends is asked for its answers one after the other. -/
theorem test_endless_source : ByteSource.next ⟨[], .stream 4⟩ = some (Config.source 4, ⟨[], .stream 5⟩) := rfl

/-- A decode may find its opcode among the listed answers and its operand among the endless ones. -/
theorem test_ready_from_endless_source (h : Config.source 0 = .byte 0x7F) :
    State.ReadyFor [0xA9, 0x7F] { ready [] with src := ⟨[.byte 0xA9], .stream 0⟩ } :=
  ⟨by decide, by simp [ByteSource.upcoming, ByteSource.next_cons, ByteSource.next_stream, h]⟩

/-- A decode suspended in OPR2 has consumed two bytes and presents nothing (L2.4). -/
theorem test_suspended_in_opr2 :
    (after (readySuspended [0xAD, 0x34])).map (fun t => (t.phase, t.cursor, t.dispValid, t.errValid, t.calls)) =
      some (.opr2, 2, false, false, []) := by decide +kernel

/-- LDA Immediate in OPR1, with its operand byte still to come. -/
def inOpr1 : State :=
  { ready [0x7F] with phase := .opr1, opc := some 0xA9, ent := some (.defined .LDA .immediate), cursor := 1, control := [] }

/-- LDA Absolute in OPR2, with its last byte still to come. -/
def inOpr2 : State :=
  { ready [0x12] with
    phase := .opr2
    opc := some 0xAD
    lo := some 0x34
    ent := some (.defined .LDA .absolute)
    cursor := 2
    control := [] }

/-- LDA Immediate, suspended in OPR1, then a reset: IDLE, no output valid, no call, the opcode byte stays consumed (L2.4). -/
theorem test_reset_in_opr1 :
    (after { inOpr1 with control := [.reset] }).map (fun t => (t.phase, t.cursor, t.calls, t.latchesEmpty)) =
        some (.idle, 1, [], true) ∧
      (after { inOpr1 with control := [.reset] }).map (fun t => (t.dispValid, t.errValid)) = some (false, false) := by
  decide +kernel

/-! ### The port-level trace L3.5, request by request -/

/-- The state after one request. -/
def afterTick (s : State) : Option State :=
  match tick s with
  | .next t => some t
  | .fault _ | .refused _ => none

/-- In OPC, about to request the opcode byte. -/
def inOpc : State := { ready [0xA9, 0x7F] with phase := .opc, control := [] }

theorem test_trace_opc :
    (afterTick inOpc).map (fun t => (t.phase, t.opc, t.ent)) = some (.opr1, some 0xA9, entryOf 0x5D2) ∧
      (afterTick inOpc).map (fun t => (t.lo, t.srcReq, t.cursor)) = some (none, true, 1) := by decide +kernel

theorem test_trace_opr1 :
    (afterTick inOpr1).map (fun t => (t.phase, t.lo, t.hi)) = some (.done, some 0x7F, none) ∧
      (afterTick inOpr1).map (fun t => (t.dispValid, t.dispMnem, t.argMode, t.modeSel)) = some (true, 29, 2, 0x0004) := by
  decide +kernel

theorem test_trace_ack :
    (after { ready [] with phase := .done, outcome := some (.failed .streamExhausted), control := [.ack] }).map
      (fun t => (t.phase, t.busy, t.done, t.errValid)) = some (.idle, false, false, false) := by decide +kernel

/-! ### An instruction placed by the host runs first after reset -/

theorem test_placed_runs :
    dispatchPorts (State.reset.withFetchWord 24 0x1234AD) = some ⟨some ⟨.LDA, some (.absolute 0x1234)⟩, 29, true, 0x1234, false, 3⟩ ∧
      errorPorts (State.reset.withFetchWord 8 0x02) = some ⟨some (.undefinedOpcode 0x02), 2, 0x02, false, 0, 1⟩ := by decide +kernel

/-- From reset alone, with nothing given, the block stays idle. -/
theorem test_reset_stays_idle : after State.reset = some { State.reset with moment := 1 } := by decide +kernel

/-! ### Witnesses: for each statement with hypotheses, states and operands that meet them together -/

theorem test_witness_StepRunsDecodedInstruction :
    (ready [0xA9, 0x7F]).RomIntact ∧ (ready [0xA9, 0x7F]).ReadyFor [0xA9, 0x7F] ∧
      decode [0xA9, 0x7F] = .ok (.lda (.immediate 0x7F), []) := ⟨rfl, by decide, by decide +kernel⟩

theorem test_witness_PlacedInstructionRunsNext : decodeTableWord 8 0xE8 = some .inx := by decide +kernel

/-- The boundary operand values among them: the largest address, the most negative offset. -/
theorem test_witness_DecodeEncodeRoundTrip :
    [Instr.lda (.absolute 0xFFFF), .beq (.relative (-128)), .brk, .asl .accumulator, .undefined 0xFF].all Instr.wf = true := by
  decide +kernel

theorem test_witness_EncodeDecodeRoundTrip : decode [0xAD, 0xFF, 0xFF, 0x00] = .ok (.lda (.absolute 0xFFFF), [0x00]) := by
  decide +kernel

/-- Operand lengths 0, 1 and 2, each with just enough bytes, and the longest one byte short. -/
theorem test_witness_LengthFixedByOpcode :
    lookup opcodeRom 0xE8 = some (.defined .INX .implied) ∧ opLen .implied ≤ ([] : List Byte).length ∧
      lookup opcodeRom 0xA9 = some (.defined .LDA .immediate) ∧ opLen .immediate ≤ [(0x7F : Byte)].length ∧
      lookup opcodeRom 0xAD = some (.defined .LDA .absolute) ∧ opLen .absolute ≤ [(0x34 : Byte), 0x12].length ∧
      [(0x34 : Byte)].length < opLen .absolute := by decide +kernel

/-- A word with bit 10 low and one with bit 10 high; the largest mnemonic and mode indices that appear. -/
theorem test_witness_RomInvariants :
    opcodeRom[0x02]? = some 0 ∧ (0 : RomWord).getLsbD 10 = false ∧ opcodeRom[0x98]? = some 0x770 ∧
      (0x770 : RomWord).getLsbD 10 = true ∧ (0x770 : RomWord).extractLsb' 4 6 = 55 ∧
      (0x49C : RomWord).extractLsb' 0 4 = 12 := by decide +kernel

theorem test_witness_NoOperandMnemonicsAreTheImpliedOnes :
    lookup opcodeRom 0x00 = some (.defined .BRK .implied) ∧ Mnemonic.noOperand .BRK = true ∧
      lookup opcodeRom 0x0A = some (.defined .ASL .accumulator) ∧ Mnemonic.noOperand .ASL = false := by decide +kernel

/-- The two sides of the sign boundary of a Relative operand. -/
theorem test_witness_ReadOperandPayloads :
    argOf .relative (some 0x7F) none = some (.relative 127) ∧ argOf .relative (some 0x80) none = some (.relative (-128)) := by
  decide +kernel

theorem test_witness_TwoByteOperandIsLittleEndian :
    (ready [0x6C, 0xFF, 0x10]).RomIntact ∧ (ready [0x6C, 0xFF, 0x10]).ReadyFor [0x6C, 0xFF, 0x10] ∧
      lookup opcodeRom 0x6C = some (.defined .JMP .indirect) ∧ opLen .indirect = 2 :=
  ⟨rfl, by decide, by decide +kernel, rfl⟩

/-- No operand byte, one, and two. -/
theorem test_witness_DispatchPorts :
    (ready [0xE8]).ReadyFor [0xE8] ∧ lookup opcodeRom 0xE8 = some (.defined .INX .implied) ∧ opLen .implied = 0 ∧
      (ready [0xA9, 0xFF]).ReadyFor [0xA9, 0xFF] ∧ lookup opcodeRom 0xA9 = some (.defined .LDA .immediate) ∧ opLen .immediate = 1 ∧
      (ready [0xAD, 0xFF, 0xFF]).ReadyFor [0xAD, 0xFF, 0xFF] ∧ lookup opcodeRom 0xAD = some (.defined .LDA .absolute) ∧
      opLen .absolute = 2 ∧ (ready []).RomIntact :=
  ⟨by decide, by decide +kernel, rfl, by decide, by decide +kernel, rfl, by decide, by decide +kernel, rfl, rfl⟩

theorem test_witness_UndefinedOpcodeTakesOneByte :
    (ready [0xFF]).RomIntact ∧ (ready [0xFF]).ReadyFor [0xFF] ∧ (0xFF : Byte) ∈ undefinedBytes ∧ (0x02 : Byte) ∈ undefinedBytes :=
  ⟨rfl, by decide, by decide +kernel, by decide +kernel⟩

/-- A source that has ended, and one that fails this once and has bytes later. -/
theorem test_witness_ExhaustedAtOpcodeFetch :
    (ready []).EndsAfter [] ∧ State.EndsAfter [] { ready [] with src := ⟨[.exhausted, .byte 0xEA], .suspended⟩ } := by
  decide

/-- One byte short at the first operand byte, and at the second. -/
theorem test_witness_PartialReadStaysConsumed :
    (ready [0xAD]).RomIntact ∧ (ready [0xAD]).EndsAfter [0xAD] ∧ (ready [0xAD, 0x34]).EndsAfter [0xAD, 0x34] ∧
      lookup opcodeRom 0xAD = some (.defined .LDA .absolute) ∧ [(0x34 : Byte)].length < opLen .absolute :=
  ⟨rfl, by decide, by decide, by decide +kernel, by decide⟩

theorem test_witness_SuspendedSourceHasNoStep :
    stuck.busy = true ∧ stuck.control = [] ∧ stuck.srcShared = false ∧ stuck.src.next = none := by
  decide

/-- Suspended in OPR1, and in OPR2. -/
theorem test_witness_SuspensionKeepsProgress :
    (readySuspended [0xAD]).RomIntact ∧ (readySuspended [0xAD]).SilentAfter [0xAD] ∧
      (readySuspended [0xAD, 0x34]).SilentAfter [0xAD, 0x34] ∧ lookup opcodeRom 0xAD = some (.defined .LDA .absolute) ∧
      ([] : List Byte).length < opLen .absolute ∧ [(0x34 : Byte)].length < opLen .absolute :=
  ⟨rfl, by decide, by decide, by decide +kernel, by decide, by decide⟩

/-- The wait before the opcode, and before the last byte. -/
theorem test_witness_SplitReadEqualsWholeRead :
    (ready []).RomIntact ∧ (ready []).phase = .idle ∧ (ready []).srcShared = false ∧ (ready []).control = [.start] ∧
      decode ([] ++ [0xE8]) = .ok (.inx, []) ∧
      (ByteSource.skip 0 ⟨[.wait, .byte 0xE8], .exhausted⟩).next = some (.wait, ⟨[.byte 0xE8], .exhausted⟩) ∧
      ByteSource.upcoming 1 ⟨[.byte 0xE8], .exhausted⟩ = [.byte 0xE8] ∧
      decode ([0xAD, 0x34] ++ [0x12]) = .ok (.lda (.absolute 0x1234), []) ∧
      ByteSource.upcoming 2 ⟨[.byte 0xAD, .byte 0x34, .wait, .byte 0x12], .suspended⟩ = [.byte 0xAD, .byte 0x34] ∧
      (ByteSource.skip 2 ⟨[.byte 0xAD, .byte 0x34, .wait, .byte 0x12], .suspended⟩).next = some (.wait, ⟨[.byte 0x12], .suspended⟩) ∧
      ByteSource.upcoming 1 ⟨[.byte 0x12], .suspended⟩ = [.byte 0x12] :=
  ⟨rfl, rfl, rfl, rfl, by decide +kernel, rfl, rfl, by decide +kernel, rfl, rfl, rfl⟩

/-- In OPC with a source that another decode drives too. -/
def sharedBusy : State := { stuck with srcShared := true }

/-- About to begin a decode with a source that another decode drives too. -/
def sharedIdle : State := { ready [0xEA] with srcShared := true }

theorem test_witness_SharedSourceRefused :
    (sharedBusy.srcShared = true ∧ sharedBusy.busy = true ∧ ∀ p, sharedBusy.control ≠ .reset :: p) ∧
      (sharedIdle.srcShared = true ∧ sharedIdle.phase = .idle ∧ sharedIdle.control.head? = some .start ∧
        ∀ p, sharedIdle.control ≠ .reset :: p) :=
  ⟨⟨rfl, rfl, fun _ h => nomatch h⟩, ⟨rfl, rfl, rfl, fun _ h => nomatch h⟩⟩

theorem test_witness_ResetAbandonsDecode : ({ stuck with control := [.reset, .start] } : State).control = .reset :: [.start] := rfl

/-- A busy state whose step answers a next state without a pulse, and one that is stuck without a pulse. -/
theorem test_witness_PulseIgnoredDuringDecode :
    inOpc.busy = true ∧ (∃ t, step { inOpc with control := [] } = .next t) ∧
    stuck.busy = true ∧ step { stuck with control := [] } = .fault .sourceSuspended ∧ Pulse.start ≠ .reset ∧ Pulse.ack ≠ .reset :=
  ⟨rfl, exists_next (by decide +kernel), rfl, rfl, by decide, by decide⟩

theorem test_witness_AckReturnsToIdle :
    (State.raise .streamExhausted State.reset).phase = .done ∧
      ({ State.raise .streamExhausted State.reset with control := [.ack] } : State).control = .ack :: [] ∧
      ({ State.raise .streamExhausted State.reset with control := [.start] } : State).control = .start :: [] ∧
      (State.raise .streamExhausted State.reset).control = [] := ⟨rfl, rfl, rfl, rfl⟩

/-- No pulse, and each pulse that begins no decode. -/
theorem test_witness_DecodeBeginsOnlyAtStart :
    State.reset.phase = .idle ∧ State.reset.control.head? ≠ some .start ∧
      ({ State.reset with control := [.ack] } : State).control.head? ≠ some .start ∧
      ({ State.reset with control := [.reset] } : State).control.head? ≠ some .start := by decide

theorem test_witness_RomNeverWritten : (∃ t, step (ready [0xA9, 0x7F]) = .next t) ∧ (ready [0xA9, 0x7F]).RomIntact :=
  ⟨exists_next (by decide +kernel), rfl⟩

/-- From IDLE, from the middle of a decode, and from DONE. -/
theorem test_witness_StepKeepsInvariant :
    (ready [0xA9, 0x7F]).Inv ∧ (∃ t, step (ready [0xA9, 0x7F]) = .next t) ∧
      inOpr2.Inv ∧ (∃ t, step inOpr2 = .next t) ∧
      (State.raise .streamExhausted State.reset).Inv ∧ ∃ t, step (State.raise .streamExhausted State.reset) = .next t :=
  ⟨⟨rfl, by decide +kernel⟩, exists_next (by decide +kernel), ⟨rfl, by decide +kernel⟩, exists_next (by decide +kernel),
    ⟨rfl, by decide +kernel⟩, exists_next (by decide +kernel)⟩

theorem test_witness_NothingGoesWrong : (ready [0xAD, 0x34, 0x12]).Inv := ⟨rfl, by decide +kernel⟩

/-- A step that makes three requests. -/
theorem test_witness_BytesConsumedOnceInOrder : ∃ t, step (ready [0xAD, 0x34, 0x12]) = .next t := exists_next (by decide +kernel)

/-- A step that makes a call, and one that raises an error. -/
theorem test_witness_AtMostOneCallPerStep :
    (∃ t, step (ready [0xE8]) = .next t) ∧ (after (ready [0x02])).map State.errValid = some true :=
  ⟨exists_next (by decide +kernel), by decide +kernel⟩

/-- A state with each error on the port, and one with a dispatch on it. -/
theorem test_witness_ErrorAndDispatchExclude :
    (State.raise .streamExhausted State.reset).errValid = true ∧ (State.raise (.undefinedOpcode 0x02) State.reset).errValid = true ∧
      (State.deliver ⟨.NOP, none⟩ State.reset).dispValid = true ∧
      (State.raise .streamExhausted State.reset).phase = .done ∧
      (State.raise .streamExhausted State.reset).outcome = some (.failed .streamExhausted) := by decide

/-- `ready [0xE8]` with all an earlier decode may leave. -/
def used : State :=
  { ready [0xE8] with
    opc := some 0xAD
    lo := some 0x34
    hi := some 0x12
    ent := some (.defined .LDA .absolute)
    outcome := some (.failed .streamExhausted)
    cursor := 7 }

theorem test_witness_DecodeForgetsEarlierDecodes :
    (ready [0xE8]).Starting ∧ used.Starting ∧ used.rom = (ready [0xE8]).rom ∧ used.src = (ready [0xE8]).src ∧
      used.calls = (ready [0xE8]).calls ∧ ∃ t, step (ready [0xE8]) = .next t :=
  ⟨by decide, by decide, rfl, rfl, rfl, exists_next (by decide +kernel)⟩

theorem test_witness_ConsumptionIndependentOfConsumer : ∃ t, step (ready [0xF0, 0x80]) = .next t := exists_next (by decide +kernel)

/-- A state with an Arg on the port, and one with a call that carries none. -/
theorem test_witness_AcceptStrobesOfPresentedArg :
    (State.deliver ⟨.LDA, some (.immediate 0x7F)⟩ State.reset).presentedArg = some (.immediate 0x7F) ∧
      (State.deliver ⟨.NOP, none⟩ State.reset).presentedArg = none := by decide

/-- A form with two operand bytes, one with one and one with none: every byte there, and one missing. -/
theorem test_witness_LoadStoreRules :
    (ready [0xBE, 0xFF, 0xFF]).RomIntact ∧ (ready [0xBE, 0xFF, 0xFF]).ReadyFor [0xBE, 0xFF, 0xFF] ∧
      [(0xFF : Byte), 0xFF].length = opLen .absoluteY ∧ (ready [0xBE, 0xFF]).EndsAfter [0xBE, 0xFF] ∧
      [(0xFF : Byte)].length < opLen .absoluteY ∧ (ready [0xBE]).ReadyFor [0xBE] ∧ ∃ t, step (ready [0xBE]) = .next t :=
  ⟨rfl, by decide, rfl, by decide, by decide, by decide, exists_next (by decide +kernel)⟩

theorem test_witness_AluRules :
    (ready [0x61, 0xFF]).RomIntact ∧ (ready [0x61, 0xFF]).ReadyFor [0x61, 0xFF] ∧ [(0xFF : Byte)].length = opLen .indexedIndirect ∧
      (ready [0x61]).EndsAfter [0x61] ∧ ([] : List Byte).length < opLen .indexedIndirect :=
  ⟨rfl, by decide, rfl, by decide, by decide⟩

theorem test_witness_ReadModifyWriteRules :
    (ready [0x0A]).RomIntact ∧ (ready [0x0A]).ReadyFor [0x0A] ∧ ([] : List Byte).length = opLen .accumulator ∧
      (ready [0x1E, 0x00]).EndsAfter [0x1E, 0x00] ∧ [(0x00 : Byte)].length < opLen .absoluteX :=
  ⟨rfl, by decide, rfl, by decide, by decide⟩

theorem test_witness_JumpAndBranchRules :
    (ready [0xD0, 0x80]).RomIntact ∧ (ready [0xD0, 0x80]).ReadyFor [0xD0, 0x80] ∧ [(0x80 : Byte)].length = opLen .relative ∧
      (ready [0xD0]).EndsAfter [0xD0] ∧ ([] : List Byte).length < opLen .relative :=
  ⟨rfl, by decide, rfl, by decide, by decide⟩

theorem test_witness_ReturnAndBreakRules : (ready [0x00]).RomIntact ∧ (ready [0x00]).ReadyFor [0x00] := ⟨rfl, by decide⟩

theorem test_witness_RegisterRules : (ready [0xE8]).RomIntact ∧ (ready [0xE8]).ReadyFor [0xE8] := ⟨rfl, by decide⟩

theorem test_witness_StackAndFlagRules : (ready [0x48]).RomIntact ∧ (ready [0x48]).ReadyFor [0x48] := ⟨rfl, by decide⟩

end Sys2Proof.Tests
end

section
/-! SUPPORT. What the block does with a pulse, and how much of the source a step takes. -/

namespace Sys2Proof.Machine

/-! ### The control port -/

/-- What taking a pulse leaves alone. -/
theorem takePulse_frame (s : State) :
    s.takePulse.rom = s.rom ∧ s.takePulse.src = s.src ∧ s.takePulse.srcShared = s.srcShared ∧
      s.takePulse.cursor = s.cursor ∧ s.takePulse.calls = s.calls ∧ s.takePulse.moment = s.moment := by
  rcases takePulse_cases s with ⟨-, h⟩ | ⟨p, -, -, h⟩ | ⟨q, p, -, h, -⟩ | ⟨q, p, -, h, -⟩ <;> rw [h] <;> simp

@[simp] theorem State.takePulse_rom (s : State) : s.takePulse.rom = s.rom := (takePulse_frame s).1
@[simp] theorem State.takePulse_src (s : State) : s.takePulse.src = s.src := (takePulse_frame s).2.1
@[simp] theorem State.takePulse_cursor (s : State) : s.takePulse.cursor = s.cursor := (takePulse_frame s).2.2.2.1
@[simp] theorem State.takePulse_calls (s : State) : s.takePulse.calls = s.calls := (takePulse_frame s).2.2.2.2.1

/-- The end of a wait takes the wait from the source and nothing else. -/
theorem afterWait_consumed {s t : State} (h : afterWait s = some t) : Consumed 1 s t := by
  obtain ⟨-, src, hn, rfl⟩ := afterWait_eq_some.mp h
  exact .one ⟨rfl, rfl, rfl, rfl⟩ hn (by simp)

theorem Consumed.mono {m n : Nat} {s t : State} (h : Consumed m s t) (hmn : m ≤ n) : Consumed n s t := by
  obtain ⟨hu, k, hk, hrest⟩ := h
  exact ⟨hu, k, hk.trans hmn, hrest⟩

/-- Going on for at most `n` requests takes at most `n` answers. -/
theorem decodeOn_consumed (n : Nat) {s t : State} (h : decodeOn n s = .next t) : Consumed n s t := by
  induction n generalizing s with
  | zero => cases h; exact .refl 0 _
  | succ n ih =>
    rcases decodeOn_next h with rfl | ⟨-, hw, hn⟩ | ⟨m, u, hm, -, -, hu, hrest⟩
    · exact .refl _ _
    · exact (afterWait_consumed hw).mono hn
    · cases hm
      exact ((tick_consumed hu).trans (ih hrest)).mono (by omega)

/-- Going on without a pulse is going on with the decode, but where the source leaves the first request open: there the
decode would stay as it is, and there is no step. -/
theorem continueStep_cases (s : State) :
    continueStep s = decodeOn 3 s ∨ (continueStep s = .fault .sourceSuspended ∧ decodeOn 3 s = .next s) := by
  unfold continueStep
  rw [decodeOn]
  split
  · split
    · exact .inl rfl
    · cases tick s with
      | next u => exact .inl rfl
      | fault r => cases r <;> simp [afterRequest]
      | refused r => exact .inl rfl
  · exact .inl rfl

/-- Everything a step can be: its pulse taken and the decode gone on with, or the stop of a suspended source. -/
theorem step_cases (s : State) : step s = decodeOn 3 s.nextMoment.takePulse ∨ step s = .fault .sourceSuspended := by
  cases hc : s.control with
  | nil =>
    have ht : s.nextMoment.takePulse = s.nextMoment := by simp [State.takePulse, hc]
    rw [step_of_no_pulse hc, ht]
    exact (continueStep_cases s.nextMoment).imp_right And.left
  | cons q p => exact .inl (step_of_pulse hc)

/-- Settles O26: what a step does after its pulse leaves the table alone, and so does the pulse. -/
theorem romNeverWritten : Obligations.RomNeverWritten := by
  intro s t h
  have hrom : t.rom = s.rom := by simpa using (decodeOn_consumed 3 (step_next h)).untouched.rom
  exact ⟨hrom, hrom.trans⟩

/-- Settles O30: a step makes at most three requests, each for the next answer. -/
theorem bytesConsumedOnceInOrder : Obligations.BytesConsumedOnceInOrder := by
  intro s t h
  obtain ⟨n, hn, hall, hsrc, hcursor⟩ := (decodeOn_consumed 3 (step_next h)).answers
  rw [State.takePulse_src, State.nextMoment_src] at hall hsrc hcursor
  rw [State.takePulse_cursor, State.nextMoment_cursor] at hcursor
  exact ⟨n, hn, hall, hsrc, hcursor⟩

end Sys2Proof.Machine
end

section
/-! SUPPORT. The invariant of the block: every operation keeps it, and no operation goes wrong under it. -/

namespace Sys2Proof

/-! ### The fixed table -/

/-- Every word of the table gives its entry back (30_encoding.md R83). -/
@[simp] theorem entryOf_toWord (e : Entry) : entryOf e.toWord = some e := by
  cases e with
  | defined m mode =>
    obtain ⟨hdef, hmnem, hmode⟩ := defined_word_fields m.index mode.index
    simp [entryOf, Entry.toWord, hdef, hmnem, hmode]
  | undefined => rfl

/-- Looking an opcode up in the fixed ROM is indexing the map of 30_encoding.md R88. -/
theorem lookup_opcodeRom (b : Byte) : lookup opcodeRom b = opcodeTable[b.toNat]? := by
  cases h : opcodeTable[b.toNat]? <;> simp [lookup, opcodeRom, h]

/-- The fixed table has an entry for every opcode. -/
theorem lookup_opcodeRom_isSome (b : Byte) : ∃ e, lookup opcodeRom b = some e := by
  have hb : b.toNat < opcodeTable.length := by simpa using b.isLt
  exact ⟨_, (lookup_opcodeRom b).trans (List.getElem?_eq_getElem hb)⟩

end Sys2Proof

namespace Sys2Proof.Machine

/-! ### What the latches hold -/

/-- With the opcode and every operand byte of the entry latched, the latches hold an instruction. -/
theorem latchedInstr_isSome {s : State} {e : Entry} (he : s.ent = some e) (ho : s.opc.isSome)
    (hlo : 1 ≤ operandCount e → s.lo.isSome) (hhi : 2 ≤ operandCount e → s.hi.isSome) : ∃ i, latchedInstr s = some i := by
  cases e with
  | undefined =>
    obtain ⟨b, hb⟩ := Option.isSome_iff_exists.mp ho
    exact ⟨.undefined b, by simp [latchedInstr, he, hb]⟩
  | defined m mode =>
    obtain ⟨a, ha, -⟩ := argOf_isSome hlo hhi
    exact ⟨instrOf m a, by simp [latchedInstr, he, readOperand, ha]⟩

/-- Without an entry the latches hold no instruction. -/
theorem latchedInstr_of_ent_none {s : State} (he : s.ent = none) : latchedInstr s = none := by
  simp [latchedInstr, he]

/-- With an operand byte of the entry missing the latches hold no instruction (41_dispatch.md R149). -/
theorem latchedInstr_of_missing {s : State} {e : Entry} (he : s.ent = some e)
    (h : (1 ≤ operandCount e ∧ s.lo = none) ∨ (2 ≤ operandCount e ∧ s.hi = none)) : latchedInstr s = none := by
  cases e with
  | undefined => simp [operandCount] at h
  | defined m mode =>
    obtain ⟨hn, hl⟩ | ⟨hn, hl⟩ := h
    · simp [latchedInstr, he, readOperand, hl, argOf_none_lo _ hn]
    · simp [latchedInstr, he, readOperand, hl, argOf_none_hi _ hn]

/-! ### The invariant, phase by phase -/

theorem State.latchesEmpty_iff {s : State} :
    s.latchesEmpty = true ↔ s.opc = none ∧ s.lo = none ∧ s.hi = none ∧ s.ent = none := by
  simp [State.latchesEmpty, and_assoc]

theorem State.entryNeeds_iff {s : State} {n : Nat} :
    s.entryNeeds n = true ↔ ∃ e, s.ent = some e ∧ n ≤ operandCount e := by
  unfold State.entryNeeds
  cases s.ent <;> simp

/-- The entry latched is the one the table has for the opcode latched. -/
theorem State.coherent_entry {s : State} (h : s.coherent = true) : s.opc.bind (lookup s.rom) = s.ent := by
  simp only [State.coherent, Bool.and_eq_true, beq_iff_eq] at h
  exact h.1

/-- A coherent block with an entry latched has an opcode latched. -/
theorem State.opc_isSome_of_coherent {s : State} (h : s.coherent = true) {e : Entry} (he : s.ent = some e) :
    s.opc.isSome := by
  have hent := coherent_entry h
  cases ho : s.opc with
  | none => simp [ho, he] at hent
  | some b => rfl

theorem State.coherent_before_fetch {s : State} (hp : s.phase = .idle ∨ s.phase = .opc) :
    s.coherent = true ↔ s.latchesEmpty = true ∧ s.outcome = none := by
  have hempty : s.latchesEmpty = true → s.opc.bind (lookup s.rom) = s.ent := by
    rw [State.latchesEmpty_iff]
    rintro ⟨ho, -, -, he⟩
    simp [ho, he]
  rcases hp with hp | hp <;> simpa [State.coherent, hp] using fun h _ => hempty h

theorem State.coherent_opr1 {s : State} (hp : s.phase = .opr1) :
    s.coherent = true ↔ s.opc.bind (lookup s.rom) = s.ent ∧ s.entryNeeds 1 = true ∧ s.lo = none ∧ s.hi = none ∧
      s.outcome = none := by
  simp [State.coherent, hp, and_assoc]

theorem State.coherent_opr2 {s : State} (hp : s.phase = .opr2) :
    s.coherent = true ↔ s.opc.bind (lookup s.rom) = s.ent ∧ s.entryNeeds 2 = true ∧ s.lo.isSome = true ∧ s.hi = none ∧
      s.outcome = none := by
  simp [State.coherent, hp, and_assoc]

theorem State.coherent_done {s : State} (hp : s.phase = .done) :
    s.coherent = true ↔ s.opc.bind (lookup s.rom) = s.ent ∧ s.outcomeFits = true := by
  simp [State.coherent, hp]

/-! ### Every operation keeps the invariant -/

theorem blank_coherent (s : State) : s.blank.coherent = true := (State.coherent_before_fetch (.inl rfl)).mpr ⟨rfl, rfl⟩

/-- A dispatch of the instruction latched leaves the outcome the latches give. -/
theorem complete_coherent {s t : State} (h : complete s = .next t) (hent : s.opc.bind (lookup s.rom) = s.ent) :
    t.coherent = true := by
  obtain ⟨i, hi, he⟩ := complete_next h
  rcases exec_cases i s with ⟨b, rfl, hx⟩ | ⟨c, hc, hx⟩ <;> rw [hx] at he <;> cases he
  · have hl : latchedInstr (s.raise (.undefinedOpcode b)) = some (.undefined b) := hi
    exact (State.coherent_done rfl).mpr ⟨hent, by simp [State.outcomeFits, hl]⟩
  · have hl : latchedInstr (s.deliver c) = some i := hi
    exact (State.coherent_done rfl).mpr ⟨hent, by simp [State.outcomeFits, hl, hc]⟩

/-- `StreamExhausted` may be raised where the latches hold no complete instruction. -/
theorem raise_exhausted_coherent {s : State} (hent : s.opc.bind (lookup s.rom) = s.ent) (h : latchedInstr s = none) :
    (s.raise .streamExhausted).coherent = true := by
  have hl : latchedInstr (s.raise .streamExhausted) = none := h
  exact (State.coherent_done rfl).mpr ⟨hent, by simp [State.outcomeFits, hl]⟩

/-- In the middle of a coherent decode the latches hold no complete instruction. -/
theorem latchedInstr_of_busy {s : State} (h : s.coherent = true) (hb : s.busy = true) : latchedInstr s = none := by
  rcases State.busy_eq_true.mp hb with hp | hp | hp
  · obtain ⟨hl, -⟩ := (State.coherent_before_fetch (.inr hp)).mp h
    exact latchedInstr_of_ent_none (State.latchesEmpty_iff.mp hl).2.2.2
  · obtain ⟨-, hn, hlo, -⟩ := (State.coherent_opr1 hp).mp h
    obtain ⟨e, he, hn⟩ := State.entryNeeds_iff.mp hn
    exact latchedInstr_of_missing he (.inl ⟨hn, hlo⟩)
  · obtain ⟨-, hn, -, hhi, -⟩ := (State.coherent_opr2 hp).mp h
    obtain ⟨e, he, hn⟩ := State.entryNeeds_iff.mp hn
    exact latchedInstr_of_missing he (.inr ⟨hn, hhi⟩)

theorem afterOpcode_coherent {b : Byte} {s t : State} (hp : s.phase = .opc) (hs : s.coherent = true)
    (h : afterOpcode b s = .next t) : t.coherent = true := by
  obtain ⟨hl, hout⟩ := (State.coherent_before_fetch (.inr hp)).mp hs
  obtain ⟨-, hlo, hhi, -⟩ := State.latchesEmpty_iff.mp hl
  unfold afterOpcode at h
  split at h
  · rename_i e hlook
    obtain ⟨e', he', ⟨hlt, rfl⟩ | ⟨-, hc⟩⟩ := readMore_next h
    · exact (State.coherent_opr1 rfl).mpr ⟨hlook, State.entryNeeds_iff.mpr ⟨e', he', hlt⟩, hlo, hhi, hout⟩
    · exact complete_coherent hc hlook
  · cases h

theorem afterLow_coherent {b : Byte} {s t : State} (hp : s.phase = .opr1) (hs : s.coherent = true)
    (h : afterLow b s = .next t) : t.coherent = true := by
  obtain ⟨hent, -, -, hhi, hout⟩ := (State.coherent_opr1 hp).mp hs
  obtain ⟨e, he, ⟨hlt, rfl⟩ | ⟨-, hc⟩⟩ := readMore_next h
  · exact (State.coherent_opr2 rfl).mpr ⟨hent, State.entryNeeds_iff.mpr ⟨e, he, hlt⟩, rfl, hhi, hout⟩
  · exact complete_coherent hc hent

/-- One request keeps the block coherent. -/
theorem tick_coherent {s t : State} (h : tick s = .next t) (hs : s.coherent = true) : t.coherent = true := by
  have hent := State.coherent_entry hs
  have fetched : ∀ k : Byte → State → StepOutcome, s.busy = true →
      (∀ b src, k b { s with src := src, cursor := s.cursor + 1 } = .next t → t.coherent = true) →
      fetchThen k s = .next t → t.coherent = true := by
    intro k hb hk hf
    obtain ⟨-, ⟨b, src, -, hn⟩ | ⟨src, -, rfl⟩⟩ := fetchThen_next hf
    · exact hk b src hn
    · exact raise_exhausted_coherent (s := { s with src := src }) hent (latchedInstr_of_busy hs hb)
  unfold tick at h
  split at h
  · cases h; exact hs
  · cases h; exact hs
  · rename_i hp
    exact fetched _ (State.busy_eq_true.mpr (.inl hp)) (fun b src => afterOpcode_coherent hp hs) h
  · rename_i hp
    exact fetched _ (State.busy_eq_true.mpr (.inr (.inl hp))) (fun b src => afterLow_coherent hp hs) h
  · rename_i hp
    exact fetched afterHigh (State.busy_eq_true.mpr (.inr (.inr hp)))
      (fun b src hc => complete_coherent hc hent) h

/-- A pulse keeps the block coherent. -/
theorem takePulse_coherent {s : State} (hs : s.coherent = true) : s.takePulse.coherent = true := by
  rcases takePulse_cases s with ⟨-, h⟩ | ⟨p, -, -, h⟩ | ⟨q, p, -, h, -⟩ | ⟨q, p, -, h, -⟩ <;> rw [h]
  · exact hs
  · exact (State.coherent_before_fetch (.inr rfl)).mpr ⟨rfl, rfl⟩
  · exact hs
  · exact blank_coherent s

theorem afterWait_coherent {s t : State} (h : afterWait s = some t) (hs : s.coherent = true) : t.coherent = true := by
  obtain ⟨-, src, -, rfl⟩ := afterWait_eq_some.mp h
  exact hs

/-- Going on with a decode keeps the block coherent. -/
theorem decodeOn_coherent (n : Nat) {s t : State} (h : decodeOn n s = .next t) (hs : s.coherent = true) :
    t.coherent = true :=
  decodeOn_keeps (P := fun s => s.coherent = true) (fun _ _ => afterWait_coherent) (fun _ _ => tick_coherent) n h hs

/-- Settles O28: the pulse and every request after it keep the block coherent, and no step writes the table. -/
theorem stepKeepsInvariant : Obligations.StepKeepsInvariant := by
  rintro s t ⟨hrom, hcoh⟩ h
  exact ⟨(romNeverWritten s t h).2 hrom, decodeOn_coherent 3 (step_next h) (takePulse_coherent (s := s.nextMoment) hcoh)⟩

/-- Settles O27: reset writes each field the invariant speaks of. -/
theorem resetMeetsInvariant : Obligations.ResetMeetsInvariant :=
  ⟨⟨rfl, (State.coherent_before_fetch (.inl rfl)).mpr ⟨rfl, rfl⟩⟩, rfl, rfl, rfl, rfl, rfl, rfl, rfl, rfl, rfl, rfl, rfl⟩

/-! ### No operation goes wrong under the invariant -/

theorem not_goesWrong_next (s : State) : ¬ GoesWrong (.next s) := by simp [GoesWrong]

theorem exec_not_goesWrong (i : Instr) (s : State) : ¬ GoesWrong (exec i s) := by
  rcases exec_cases i s with ⟨b, -, h⟩ | ⟨c, -, h⟩ <;> rw [h] <;> exact not_goesWrong_next _

/-- Every mode has at most two operand bytes (30_encoding.md R81). -/
theorem operandCount_le_two (e : Entry) : operandCount e ≤ 2 := by
  cases e with
  | defined m mode => cases mode <;> simp [operandCount, opLen]
  | undefined => simp [operandCount]

/-- A dispatch that finds every latch it reads written does not go wrong. -/
theorem complete_not_goesWrong {s : State} {e : Entry} (he : s.ent = some e) (ho : s.opc.isSome)
    (hlo : 1 ≤ operandCount e → s.lo.isSome) (hhi : 2 ≤ operandCount e → s.hi.isSome) : ¬ GoesWrong (complete s) := by
  obtain ⟨i, hi⟩ := latchedInstr_isSome he ho hlo hhi
  simpa [complete, hi] using exec_not_goesWrong i s

theorem readMore_not_goesWrong {k : Nat} {p : Phase} {s : State} {e : Entry} (he : s.ent = some e) (ho : s.opc.isSome)
    (hlo : 1 ≤ k → s.lo.isSome) (hhi : 2 ≤ k → s.hi.isSome) : ¬ GoesWrong (readMore k p s) := by
  by_cases hk : k < operandCount e
  · rw [readMore_of_lt he hk]
    exact not_goesWrong_next _
  · have hle := Nat.le_of_not_lt hk
    rw [readMore_of_le he hle]
    exact complete_not_goesWrong he ho (fun h => hlo (h.trans hle)) (fun h => hhi (h.trans hle))

/-- A request goes wrong only in what follows a byte. -/
theorem fetchThen_not_goesWrong {k : Byte → State → StepOutcome} {s : State}
    (hk : ∀ b src, ¬ GoesWrong (k b { s with src := src, cursor := s.cursor + 1 })) : ¬ GoesWrong (fetchThen k s) := by
  rcases srcNext_cases s with ⟨-, h⟩ | ⟨-, ⟨b, src, -, h⟩ | ⟨src, -, h⟩ | ⟨src, -, h⟩ | ⟨-, h⟩⟩ <;>
    simp only [fetchThen, h]
  · simp [GoesWrong]
  · exact hk b src
  · exact not_goesWrong_next _
  all_goals simp [GoesWrong]

/-- With the fixed table in the ROM an opcode byte never goes wrong. -/
theorem afterOpcode_not_goesWrong (b : Byte) {s : State} (hrom : s.RomIntact) : ¬ GoesWrong (afterOpcode b s) := by
  obtain ⟨e, he⟩ := lookup_opcodeRom_isSome b
  simp only [afterOpcode, show lookup s.rom b = some e by rw [hrom, he]]
  exact readMore_not_goesWrong rfl rfl (by omega) (by omega)

/-- No request of a block that meets the invariant goes wrong. -/
theorem tick_not_goesWrong {s : State} (hs : s.Inv) : ¬ GoesWrong (tick s) := by
  obtain ⟨hrom, hcoh⟩ := hs
  unfold tick
  split
  · exact not_goesWrong_next s
  · exact not_goesWrong_next s
  · exact fetchThen_not_goesWrong fun b src => afterOpcode_not_goesWrong b hrom
  · rename_i hp
    obtain ⟨-, hn, -⟩ := (State.coherent_opr1 hp).mp hcoh
    obtain ⟨e, he, -⟩ := State.entryNeeds_iff.mp hn
    have ho := State.opc_isSome_of_coherent hcoh he
    exact fetchThen_not_goesWrong fun b src =>
      readMore_not_goesWrong he ho (fun _ => rfl) (by omega)
  · rename_i hp
    obtain ⟨-, hn, hlo, -⟩ := (State.coherent_opr2 hp).mp hcoh
    obtain ⟨e, he, -⟩ := State.entryNeeds_iff.mp hn
    have ho := State.opc_isSome_of_coherent hcoh he
    exact fetchThen_not_goesWrong fun b src =>
      complete_not_goesWrong he ho (fun _ => hlo) (fun _ => rfl)

/-- What follows a request goes wrong only if the request does or what goes on from it does. -/
theorem afterRequest_not_goesWrong {k : State → StepOutcome} {s : State} {o : StepOutcome} (ho : ¬ GoesWrong o)
    (hk : ∀ u, o = .next u → ¬ GoesWrong (k u)) : ¬ GoesWrong (afterRequest k s o) := by
  unfold afterRequest
  split
  · exact hk _ rfl
  · exact not_goesWrong_next s
  · exact ho
  · exact ho
  · exact ho

/-- Going on with a decode never goes wrong from a state that meets the invariant. -/
theorem decodeOn_not_goesWrong (n : Nat) {s : State} (hs : s.Inv) : ¬ GoesWrong (decodeOn n s) := by
  induction n generalizing s with
  | zero => exact not_goesWrong_next s
  | succ n ih =>
    unfold decodeOn
    split
    · split
      · exact not_goesWrong_next _
      · refine afterRequest_not_goesWrong (tick_not_goesWrong hs) fun u hu => ih ?_
        exact ⟨(tick_consumed hu).untouched.rom.trans hs.1, tick_coherent hu hs.2⟩
    · exact not_goesWrong_next s

/-- Settles O29: a step is a decode going on after the pulse, or the stop of a suspended source. -/
theorem nothingGoesWrong : Obligations.NothingGoesWrong := by
  rintro s ⟨hrom, hcoh⟩
  have hinv : s.nextMoment.takePulse.Inv := ⟨(State.takePulse_rom _).trans hrom, takePulse_coherent (s := s.nextMoment) hcoh⟩
  rcases step_cases s with h | h <;> rw [h]
  · exact decodeOn_not_goesWrong 3 hinv
  · simp [GoesWrong]

end Sys2Proof.Machine
end

section
/-! SUPPORT. Steps that make no request, requests the source does not answer with a byte, and what a decode does not look at. -/

namespace Sys2Proof.Machine

/-! ### Steps without a decode -/

/-- A pulse that leaves the block out of a decode is all that its step does. -/
theorem step_of_pulse_not_busy {s : State} {q : Pulse} {p : List Pulse} (hc : s.control = q :: p)
    (h : s.nextMoment.takePulse.busy = false) : step s = .next s.nextMoment.takePulse := by
  rw [step_of_pulse hc, decodeOn_of_not_busy h]

/-- Without a pulse, a block that is in no decode only counts the step (log entry 3). -/
theorem step_of_no_pulse_not_busy {s : State} (hc : s.control = []) (h : s.busy = false) : step s = .next s.nextMoment := by
  have hb : s.nextMoment.busy = false := h
  simp [step_of_no_pulse hc, continueStep, hb]

/-- An `ack` in DONE leaves the block blank. -/
theorem takePulse_ack_of_done {s : State} {p : List Pulse} (hp : s.phase = .done) (hc : s.control = .ack :: p) :
    s.takePulse = State.blank { s with control := p } := by
  simp [State.takePulse, State.acknowledge, hc, hp]

/-- A `start` in IDLE begins a decode. -/
theorem takePulse_start_of_idle {s : State} {p : List Pulse} (hp : s.phase = .idle) (hc : s.control = .start :: p) :
    s.takePulse = { s.blank with phase := .opc, control := p } := by
  simp [State.takePulse, State.begin, State.blank, hc, hp]

theorem State.begin_of_not_idle {s : State} (hp : s.phase ≠ .idle) : s.begin = s := by
  unfold State.begin
  split
  · exact absurd ‹_› hp
  all_goals rfl

theorem State.acknowledge_of_not_done {s : State} (hp : s.phase ≠ .done) : s.acknowledge = s := by
  unfold State.acknowledge
  split
  · exact absurd ‹_› hp
  all_goals rfl

/-- A `start` outside IDLE is used up and does nothing (10_state.md R32). -/
theorem takePulse_start_of_not_idle {s : State} {p : List Pulse} (hp : s.phase ≠ .idle) (hc : s.control = .start :: p) :
    s.takePulse = { s with control := p } := by
  simpa only [State.takePulse, hc] using State.begin_of_not_idle (s := { s with control := p }) hp

/-- An `ack` outside DONE is used up and does nothing (10_state.md R32). -/
theorem takePulse_ack_of_not_done {s : State} {p : List Pulse} (hp : s.phase ≠ .done) (hc : s.control = .ack :: p) :
    s.takePulse = { s with control := p } := by
  simpa only [State.takePulse, hc] using State.acknowledge_of_not_done (s := { s with control := p }) hp

/-- A `start` or an `ack` during a decode is used up and does nothing (10_state.md R32). -/
theorem takePulse_of_busy {s : State} {q : Pulse} {p : List Pulse} (hb : s.busy = true) (hq : q ≠ .reset)
    (hc : s.control = q :: p) : s.takePulse = { s with control := p } := by
  cases q with
  | start => exact takePulse_start_of_not_idle (fun hp => by simp [State.busy, hp] at hb) hc
  | ack => exact takePulse_ack_of_not_done (fun hp => by simp [State.busy, hp] at hb) hc
  | reset => exact absurd rfl hq

/-- No pulse but `start` leaves IDLE. -/
theorem takePulse_of_idle {s : State} (hp : s.phase = .idle) (hc : s.control.head? ≠ some .start) :
    s.takePulse.phase = .idle := by
  rcases takePulse_cases s with ⟨-, h⟩ | ⟨p, hs, -⟩ | ⟨q, p, -, h, -⟩ | ⟨q, p, -, h, -⟩
  · rw [h, hp]
  · simp [hs] at hc
  · rw [h, ← hp]
  · rw [h]; rfl

/-! ### The wires outside DONE -/

theorem State.presentedCall_of_not_done {s : State} (h : s.phase ≠ .done) : s.presentedCall = none := by
  have hd : s.done = false := by simpa using mt State.done_eq_true.mp h
  simp [State.presentedCall, hd]

theorem State.presentedError_of_not_done {s : State} (h : s.phase ≠ .done) : s.presentedError = none := by
  have hd : s.done = false := by simpa using mt State.done_eq_true.mp h
  simp [State.presentedError, hd]

/-- Outside DONE no output is valid (10_state.md R34, R36). -/
theorem State.no_output_of_not_done {s : State} (h : s.phase ≠ .done) :
    s.dispValid = false ∧ s.errValid = false ∧ s.presentedArg = none := by
  simp [State.dispValid, State.errValid, State.presentedArg, State.presentedCall_of_not_done h,
    State.presentedError_of_not_done h]

/-- Settles O24: each pulse in DONE by its own rule; none of them begins a decode. -/
theorem ackReturnsToIdle : Obligations.AckReturnsToIdle := by
  intro s p hp
  refine ⟨fun hc => ?_, fun hc => ?_, fun hc => ?_⟩
  · have ht : s.nextMoment.takePulse = State.blank { s.nextMoment with control := p } := takePulse_ack_of_done hp hc
    have hstep : step s = .next (State.blank { s.nextMoment with control := p }) := by
      rw [step_of_pulse_not_busy hc (by rw [ht]; rfl), ht]
    exact ⟨_, hstep, rfl, rfl, rfl, rfl, rfl, rfl, rfl, rfl, rfl, rfl, rfl, rfl⟩
  · have ht : s.nextMoment.takePulse = { s.nextMoment with control := p } :=
      takePulse_start_of_not_idle (by simp [hp]) hc
    have hdone : s.nextMoment.takePulse.phase = .done := by rw [ht]; exact hp
    rw [step_of_pulse_not_busy hc (State.busy_eq_false.mpr (.inr hdone)), ht]
    rfl
  · exact step_of_no_pulse_not_busy hc (State.busy_eq_false.mpr (.inr hp))

/-- In IDLE, where no `start` comes, a step takes its pulse and does nothing more. -/
theorem step_of_idle {s : State} (hp : s.phase = .idle) (hc : s.control.head? ≠ some .start) :
    step s = .next s.nextMoment.takePulse := by
  cases hq : s.control with
  | nil =>
    have ht : s.nextMoment.takePulse = s.nextMoment := by simp [State.takePulse, hq]
    rw [ht]
    exact step_of_no_pulse_not_busy hq (State.busy_eq_false.mpr (.inl hp))
  | cons q p =>
    exact step_of_pulse_not_busy hq (State.busy_eq_false.mpr (.inl (takePulse_of_idle (s := s.nextMoment) hp hc)))

/-- Settles O25: such a step is its pulse alone, and that pulse leaves the block in IDLE. -/
theorem decodeBeginsOnlyAtStart : Obligations.DecodeBeginsOnlyAtStart := by
  intro s hp hc
  have hidle : s.nextMoment.takePulse.phase = .idle := takePulse_of_idle hp hc
  obtain ⟨hd, he, -⟩ := State.no_output_of_not_done (s := s.nextMoment.takePulse) (by simp [hidle])
  exact ⟨_, step_of_idle hp hc, hidle, by simp, by simp, by simp, by simp, by simp [State.srcReq, hidle], hd, he⟩

/-! ### Requests the source does not answer with a byte -/

theorem fetchThen_of_shared (k : Byte → State → StepOutcome) {s : State} (hs : s.srcShared = true) :
    fetchThen k s = .refused .sharedSource := by
  simp [fetchThen, srcNext, hs]

theorem fetchThen_of_byte (k : Byte → State → StepOutcome) {s : State} {b : Byte} {src : ByteSource}
    (hs : s.srcShared = false) (hn : s.src.next = some (.byte b, src)) :
    fetchThen k s = k b { s with src := src, cursor := s.cursor + 1 } := by
  simp [fetchThen, srcNext, hs, hn]

theorem fetchThen_of_exhausted (k : Byte → State → StepOutcome) {s : State} {src : ByteSource}
    (hs : s.srcShared = false) (hn : s.src.next = some (.exhausted, src)) :
    fetchThen k s = .next (State.raise .streamExhausted { s with src := src }) := by
  simp [fetchThen, srcNext, hs, hn]

theorem fetchThen_of_wait (k : Byte → State → StepOutcome) {s : State} {src : ByteSource}
    (hs : s.srcShared = false) (hn : s.src.next = some (.wait, src)) : fetchThen k s = .fault .sourceSuspended := by
  simp [fetchThen, srcNext, hs, hn]

theorem fetchThen_of_silent (k : Byte → State → StepOutcome) {s : State} (hs : s.srcShared = false)
    (hn : s.src.next = none) : fetchThen k s = .fault .sourceSuspended := by
  simp [fetchThen, srcNext, hs, hn]

/-- In a decode a tick is one request. -/
theorem tick_of_busy {s : State} (hb : s.busy = true) : ∃ k, tick s = fetchThen k s := by
  rcases State.busy_eq_true.mp hb with hp | hp | hp <;> simp only [tick, hp]
  · exact ⟨afterOpcode, rfl⟩
  · exact ⟨afterLow, rfl⟩
  · exact ⟨afterHigh, rfl⟩

/-- No wait is over where the source's next answer, if there is one, is no wait. -/
theorem afterWait_eq_none {s : State} (hn : ∀ src, s.src.next ≠ some (.wait, src)) : afterWait s = none := by
  by_contra h
  obtain ⟨t, ht⟩ := Option.ne_none_iff_exists'.mp h
  obtain ⟨-, src, hw, -⟩ := afterWait_eq_some.mp ht
  exact hn src hw

/-- A decode whose next request is answered with a byte makes that request. -/
theorem decodeOn_of_byte (n : Nat) {s : State} {b : Byte} {src : ByteSource} (hb : s.busy = true)
    (hn : s.src.next = some (.byte b, src)) : decodeOn (n + 1) s = afterRequest (decodeOn n) s (tick s) :=
  decodeOn_busy hb (afterWait_eq_none (by simp [hn]))

/-- A decode that the source answers no more stays where it is. -/
theorem decodeOn_of_silent (n : Nat) {s : State} (hb : s.busy = true) (hs : s.srcShared = false) (hn : s.src.next = none) :
    decodeOn (n + 1) s = .next s := by
  obtain ⟨k, hk⟩ := tick_of_busy hb
  rw [decodeOn_busy hb (afterWait_eq_none (by simp [hn])), hk, fetchThen_of_silent k hs hn]
  rfl

/-- A decode whose next request is answered `StreamExhausted` ends with that error. -/
theorem decodeOn_of_exhausted (n : Nat) {s : State} {src : ByteSource} (hb : s.busy = true) (hs : s.srcShared = false)
    (hn : s.src.next = some (.exhausted, src)) :
    decodeOn (n + 1) s = .next (State.raise .streamExhausted { s with src := src }) := by
  obtain ⟨k, hk⟩ := tick_of_busy hb
  rw [decodeOn_busy hb (afterWait_eq_none (by simp [hn])), hk, fetchThen_of_exhausted k hs hn, afterRequest_of_next,
    decodeOn_of_not_busy (State.busy_raise _ _)]

/-- Settles O18: without a pulse the step is the request, which the source leaves open. -/
theorem suspendedSourceHasNoStep : Obligations.SuspendedSourceHasNoStep := by
  intro s hb hc hs hn
  have hw : afterWait s.nextMoment = none := afterWait_eq_none (by simp [hn])
  have hb' : s.nextMoment.busy = true := hb
  obtain ⟨k, hk⟩ := tick_of_busy hb'
  have hf : fetchThen k s.nextMoment = .fault .sourceSuspended := fetchThen_of_silent k hs hn
  simp [step_of_no_pulse hc, continueStep, hb', hw, hk, hf]

end Sys2Proof.Machine
end

section
/-! SUPPORT. A decode does not look at the cursor, the record of calls, the pulses to come or the count of steps. -/

namespace Sys2Proof.Machine

/-- The same block with `k` bytes consumed and the calls `cs` made before, with other pulses to come and at another
moment. -/
def State.rebase (k : Nat) (cs : List Call) (p : List Pulse) (m : Nat) (s : State) : State :=
  { s with cursor := k + s.cursor, calls := cs ++ s.calls, control := p, moment := m }

/-- The outcome with its next state, if there is one, mapped. -/
def mapNext (f : State → State) : StepOutcome → StepOutcome
  | .next s => .next (f s)
  | .fault r => .fault r
  | .refused r => .refused r

@[simp] theorem mapNext_next (f : State → State) (s : State) : mapNext f (.next s) = .next (f s) := rfl
@[simp] theorem mapNext_fault (f : State → State) (r : Fault) : mapNext f (.fault r) = .fault r := rfl
@[simp] theorem mapNext_refused (f : State → State) (r : Refusal) : mapNext f (.refused r) = .refused r := rfl

section
variable (k : Nat) (cs : List Call) (p : List Pulse) (m : Nat)

@[simp] theorem State.rebase_busy (s : State) : (s.rebase k cs p m).busy = s.busy := rfl
@[simp] theorem latchedInstr_rebase (s : State) : latchedInstr (s.rebase k cs p m) = latchedInstr s := rfl
@[simp] theorem State.rebase_rom (s : State) : (s.rebase k cs p m).rom = s.rom := rfl
@[simp] theorem State.rebase_phase (s : State) : (s.rebase k cs p m).phase = s.phase := rfl
@[simp] theorem State.rebase_ent (s : State) : (s.rebase k cs p m).ent = s.ent := rfl

theorem exec_rebase (i : Instr) (s : State) : exec i (s.rebase k cs p m) = mapNext (State.rebase k cs p m) (exec i s) := by
  cases hc : i.call with
  | none => cases i <;> simp [Instr.call] at hc; rfl
  | some c => simp [exec_of_call hc, State.deliver, State.rebase]

theorem complete_rebase (s : State) : complete (s.rebase k cs p m) = mapNext (State.rebase k cs p m) (complete s) := by
  cases h : latchedInstr s with
  | none => simp [complete, h]
  | some i => simpa [complete, h] using exec_rebase k cs p m i s

theorem readMore_rebase (n : Nat) (ph : Phase) (s : State) :
    readMore n ph (s.rebase k cs p m) = mapNext (State.rebase k cs p m) (readMore n ph s) := by
  cases he : s.ent with
  | none => simp [readMore, he]
  | some e =>
    by_cases hn : n < operandCount e
    · rw [readMore_of_lt he hn, readMore_of_lt (s := s.rebase k cs p m) he hn]
      rfl
    · rw [readMore_of_le he (Nat.le_of_not_lt hn), readMore_of_le (s := s.rebase k cs p m) he (Nat.le_of_not_lt hn)]
      exact complete_rebase k cs p m s

theorem fetchThen_rebase {f : Byte → State → StepOutcome}
    (hf : ∀ b s, f b (s.rebase k cs p m) = mapNext (State.rebase k cs p m) (f b s)) (s : State) :
    fetchThen f (s.rebase k cs p m) = mapNext (State.rebase k cs p m) (fetchThen f s) := by
  cases hs : s.srcShared with
  | true => rw [fetchThen_of_shared f hs, fetchThen_of_shared (s := s.rebase k cs p m) f hs, mapNext_refused]
  | false =>
    rcases hn : s.src.next with _ | ⟨b | _ | _, src⟩
    · rw [fetchThen_of_silent f hs hn, fetchThen_of_silent (s := s.rebase k cs p m) f hs hn, mapNext_fault]
    · rw [fetchThen_of_byte f hs hn, fetchThen_of_byte (s := s.rebase k cs p m) f hs hn, ← hf]
      rfl
    · rw [fetchThen_of_exhausted f hs hn, fetchThen_of_exhausted (s := s.rebase k cs p m) f hs hn]
      rfl
    · rw [fetchThen_of_wait f hs hn, fetchThen_of_wait (s := s.rebase k cs p m) f hs hn, mapNext_fault]

theorem afterOpcode_rebase (b : Byte) (s : State) :
    afterOpcode b (s.rebase k cs p m) = mapNext (State.rebase k cs p m) (afterOpcode b s) := by
  cases he : lookup s.rom b with
  | none => simp [afterOpcode, he]
  | some e =>
    simp only [afterOpcode, State.rebase_rom, he]
    exact readMore_rebase k cs p m 0 .opr1 { s with opc := some b, ent := some e }

theorem tick_rebase (s : State) : tick (s.rebase k cs p m) = mapNext (State.rebase k cs p m) (tick s) := by
  unfold tick
  rw [State.rebase_phase]
  cases s.phase with
  | idle => rfl
  | done => rfl
  | opc => exact fetchThen_rebase k cs p m (afterOpcode_rebase k cs p m) s
  | opr1 => exact fetchThen_rebase k cs p m (fun b s => readMore_rebase k cs p m 1 .opr2 { s with lo := some b }) s
  | opr2 => exact fetchThen_rebase k cs p m (fun b s => complete_rebase k cs p m { s with hi := some b }) s

theorem afterWait_rebase (s : State) : afterWait (s.rebase k cs p m) = (afterWait s).map (State.rebase k cs p m) := by
  have hsrc : (s.rebase k cs p m).src = s.src := rfl
  have hshared : (s.rebase k cs p m).srcShared = s.srcShared := rfl
  unfold afterWait
  rw [hsrc, hshared]
  cases s.srcShared with
  | true => rfl
  | false => rcases s.src.next with _ | ⟨_ | _ | _, src⟩ <;> rfl

theorem decodeOn_rebase (n : Nat) (s : State) :
    decodeOn n (s.rebase k cs p m) = mapNext (State.rebase k cs p m) (decodeOn n s) := by
  induction n generalizing s with
  | zero => rfl
  | succ n ih =>
    unfold decodeOn
    rw [State.rebase_busy, afterWait_rebase, tick_rebase]
    cases s.busy with
    | false => rfl
    | true =>
      cases afterWait s with
      | some u => rfl
      | none =>
        cases tick s with
        | next u => exact ih u
        | fault r => cases r <;> rfl
        | refused r => rfl

end

/-- The step that takes a pulse in a decode is the decode going on, with one pulse fewer to come. -/
theorem step_of_ignored_pulse {s : State} {q : Pulse} (p : List Pulse) (hb : s.busy = true) (hq : q ≠ .reset) :
    step { s with control := q :: p } =
      mapNext (State.rebase 0 [] p (s.moment + 1)) (decodeOn 3 (State.nextMoment { s with control := [] })) := by
  have htake := takePulse_of_busy (s := State.nextMoment { s with control := q :: p }) hb hq rfl
  rw [← decodeOn_rebase, step_of_pulse rfl, htake]
  simp [State.rebase, State.nextMoment]

/-- Going on with a decode never ends in the stop of a suspended source: it stays where it is. -/
theorem decodeOn_ne_suspended (n : Nat) (s : State) : decodeOn n s ≠ .fault .sourceSuspended := by
  induction n generalizing s with
  | zero => simp [decodeOn]
  | succ n ih =>
    unfold decodeOn
    split
    · split
      · simp
      · unfold afterRequest
        split
        · exact ih _
        all_goals simp
    · simp

/-- Where a block that no pulse reaches has no step, its decode stays where it is. -/
theorem decodeOn_of_suspended {s : State} (h : continueStep s = .fault .sourceSuspended) : decodeOn 3 s = .next s := by
  rcases continueStep_cases s with hc | ⟨-, hd⟩
  · exact absurd (hc ▸ h) (decodeOn_ne_suspended 3 s)
  · exact hd

/-- Settles O23: the pulse is used up, and the decode does not look at the pulses to come. -/
theorem pulseIgnoredDuringDecode : Obligations.PulseIgnoredDuringDecode := by
  intro s q p hb hq
  rw [step_of_ignored_pulse p hb hq, step_of_no_pulse rfl]
  refine ⟨fun t h => ?_, fun h => ?_⟩
  · have hd := continueStep_next h
    have hm : t.moment = s.moment + 1 := (decodeOn_consumed 3 hd).untouched.moment
    simp [hd, State.rebase, hm]
  · rw [decodeOn_of_suspended h]
    simp [State.rebase, State.nextMoment]

/-- A state about to begin a decode goes on with it from OPC, every latch empty. -/
theorem step_of_starting {s : State} (h : s.Starting) : step s = decodeOn 3 (s.arrived []) := by
  obtain ⟨hp, -, hc⟩ := h
  obtain ⟨p, hc⟩ := List.head?_eq_some_iff.mp hc
  rw [step_of_pulse hc, takePulse_start_of_idle (s := s.nextMoment) hp hc]
  simp [State.arrived, lastPhase, State.blank, State.nextMoment, hc]

/-- Two states about to begin a decode that agree on the table, the source and the calls made go on from the same block, but
for the cursor, the pulses to come and the moment. -/
theorem arrived_nil_eq_rebase {s u : State} (hs : s.Starting) (hu : u.Starting) (hrom : u.rom = s.rom) (hsrc : u.src = s.src)
    (hcalls : u.calls = s.calls) :
    u.arrived [] = State.rebase u.cursor [] u.control.tail (u.moment + 1) { s.arrived [] with cursor := 0 } := by
  have hshared : u.srcShared = s.srcShared := hu.2.1.trans hs.2.1.symm
  simp [State.arrived, State.rebase, hrom, hsrc, hcalls, hshared]

/-- Settles O33: both decodes go on from one block, moved to the one's boundary and to the other's. -/
theorem decodeForgetsEarlierDecodes : Obligations.DecodeForgetsEarlierDecodes := by
  intro s u t hs hu hrom hsrc hcalls h
  rw [step_of_starting hs, arrived_nil_eq_rebase hs hs rfl rfl rfl, decodeOn_rebase] at h
  rw [step_of_starting hu, arrived_nil_eq_rebase hs hu hrom hsrc hcalls, decodeOn_rebase]
  cases hd : decodeOn 3 { s.arrived [] with cursor := 0 } with
  | next w =>
    rw [hd] at h
    cases h
    exact ⟨_, rfl, rfl, rfl, rfl, rfl, rfl, rfl, rfl, rfl, by simp only [State.rebase]; omega⟩
  | fault r => simp [hd] at h
  | refused r => simp [hd] at h

end Sys2Proof.Machine
end

section
/-! SUPPORT. A decode from its `start`, byte by byte: where it stands while the source gives its bytes, and what it comes to. -/

namespace Sys2Proof

/-! ### What a source about to give some answers does -/

/-- A source whose next answers are `l` and then `r` gives `l`, and after that many requests `r`. -/
theorem ByteSource.upcoming_split {src : ByteSource} {l r : List Answer} {n : Nat}
    (h : src.upcoming (l.length + n) = l ++ r) :
    src.upcoming l.length = l ∧ (src.skip l.length).upcoming n = r := by
  induction l generalizing src with
  | nil => simpa using h
  | cons a l ih =>
    rw [List.length_cons, Nat.add_right_comm] at h
    obtain ⟨rest, hn, hrest⟩ := next_of_upcoming h
    obtain ⟨hl, hr⟩ := ih hrest
    rw [List.length_cons, upcoming_of_next hn, skip_of_next hn, hl]
    exact ⟨rfl, hr⟩

/-- One request more. -/
theorem ByteSource.skip_succ {src rest : ByteSource} {n : Nat} {a : Answer} (h : (src.skip n).next = some (a, rest)) :
    src.skip (n + 1) = rest := by
  rw [skip_add, skip_of_next h, skip_zero]

/-- A source that gives no answer to its next request is silent. -/
theorem ByteSource.next_of_upcoming_nil {src : ByteSource} (h : src.upcoming 1 = []) : src.next = none := by
  cases hn : src.next with
  | none => rfl
  | some p => simp [upcoming_of_next hn] at h

end Sys2Proof

namespace Sys2Proof.Machine

/-- From a state about to decode: the state in which the bytes `bs` have been latched and the next one is requested
(10_state.md R25, R26). -/
def State.awaiting (bs : List Byte) (s : State) : State := { s.arrived bs with phase := lastPhase (bs.length + 1) }

theorem State.awaiting_nil (s : State) : s.awaiting [] = s.arrived [] := rfl

theorem State.busy_awaiting (bs : List Byte) (s : State) : (s.awaiting bs).busy = true := by
  refine State.busy_eq_true.mpr (?_ : lastPhase (bs.length + 1) = _ ∨ lastPhase _ = _ ∨ lastPhase _ = _)
  unfold lastPhase
  split
  · simp
  · split <;> simp

/-- A byte that arrives in OPC is latched with its entry. -/
theorem tick_awaiting_opcode {s : State} {b : Byte} {src : ByteSource} {e : Entry} (hs : s.srcShared = false)
    (hn : s.src.next = some (.byte b, src)) (he : lookup s.rom b = some e) :
    tick (s.awaiting []) = readMore 0 .opr1 (s.arrived [b]) := by
  have hsrc : s.src.skip 1 = src := ByteSource.skip_succ (n := 0) hn
  have hf := fetchThen_of_byte afterOpcode (s := s.awaiting []) hs hn
  refine hf.trans ?_
  simp [afterOpcode, State.awaiting, State.arrived, lastPhase, he, hsrc]

/-- A byte that arrives in OPR1 is latched as the low one. -/
theorem tick_awaiting_low {s : State} {op b : Byte} {src : ByteSource} (hs : s.srcShared = false)
    (hn : (s.src.skip 1).next = some (.byte b, src)) : tick (s.awaiting [op]) = readMore 1 .opr2 (s.arrived [op, b]) := by
  have hsrc : s.src.skip 2 = src := ByteSource.skip_succ hn
  have hf := fetchThen_of_byte afterLow (s := s.awaiting [op]) hs hn
  refine hf.trans ?_
  simp [afterLow, State.awaiting, State.arrived, lastPhase, hsrc]

/-- A byte that arrives in OPR2 is latched as the high one. -/
theorem tick_awaiting_high {s : State} {op l b : Byte} {src : ByteSource} (hs : s.srcShared = false)
    (hn : (s.src.skip 2).next = some (.byte b, src)) : tick (s.awaiting [op, l]) = complete (s.arrived [op, l, b]) := by
  have hsrc : s.src.skip 3 = src := ByteSource.skip_succ hn
  have hf := fetchThen_of_byte afterHigh (s := s.awaiting [op, l]) hs hn
  refine hf.trans ?_
  simp [afterHigh, State.awaiting, State.arrived, lastPhase, hsrc]

/-- A byte arrives and the entry has one more: the next one is requested. -/
theorem tick_awaiting_of_lt {s : State} {bs : List Byte} {b : Byte} {src : ByteSource} {e : Entry} (hs : s.srcShared = false)
    (hn : (s.src.skip bs.length).next = some (.byte b, src)) (he : ∀ op ∈ (bs ++ [b]).head?, lookup s.rom op = some e)
    (hk : bs.length < operandCount e) : tick (s.awaiting bs) = .next (s.awaiting (bs ++ [b])) := by
  match bs with
  | [] => exact (tick_awaiting_opcode hs hn (he b rfl)).trans (readMore_of_lt (he b rfl) hk)
  | [op] => exact (tick_awaiting_low hs hn).trans (readMore_of_lt (he op rfl) hk)
  | _ :: _ :: _ =>
    have := operandCount_le_two e
    simp only [List.length_cons] at hk
    omega

/-- The last byte of the entry's instruction arrives: the instruction is dispatched. -/
theorem tick_awaiting_of_eq {s : State} {bs : List Byte} {b : Byte} {src : ByteSource} {e : Entry} (hs : s.srcShared = false)
    (hn : (s.src.skip bs.length).next = some (.byte b, src)) (he : ∀ op ∈ (bs ++ [b]).head?, lookup s.rom op = some e)
    (hk : operandCount e = bs.length) : tick (s.awaiting bs) = complete (s.arrived (bs ++ [b])) := by
  match bs with
  | [] => exact (tick_awaiting_opcode hs hn (he b rfl)).trans (readMore_of_le (he b rfl) hk.le)
  | [op] => exact (tick_awaiting_low hs hn).trans (readMore_of_le (he op rfl) hk.le)
  | [op, l] => exact tick_awaiting_high hs hn
  | _ :: _ :: _ :: _ =>
    have := operandCount_le_two e
    simp only [List.length_cons] at hk
    omega

/-- While the source gives bytes the entry needs, the decode goes on to the request after them. -/
theorem decodeOn_awaiting {s : State} {e : Entry} (hs : s.srcShared = false) (n : Nat) (more : List Byte) :
    ∀ bs : List Byte, (s.src.skip bs.length).upcoming more.length = more.map .byte →
      (∀ op ∈ (bs ++ more).head?, lookup s.rom op = some e) → (bs ++ more).length ≤ operandCount e →
      decodeOn (more.length + n) (s.awaiting bs) = decodeOn n (s.awaiting (bs ++ more)) := by
  induction more with
  | nil => simp
  | cons b more ih =>
    intro bs hup he hk
    obtain ⟨src, hn, hmore⟩ := ByteSource.next_of_upcoming hup
    have hlt : bs.length < operandCount e := by simp at hk; omega
    have hfirst : ∀ op ∈ (bs ++ [b]).head?, lookup s.rom op = some e := by cases bs <;> simpa using he
    have hskip : s.src.skip (bs ++ [b]).length = src := by
      rw [List.length_append]
      exact ByteSource.skip_succ hn
    have hrest := ih (bs ++ [b]) (by rwa [hskip]) (by simpa using he) (by simpa using hk)
    rw [List.length_cons, Nat.add_right_comm, decodeOn_of_byte _ (State.busy_awaiting bs s) hn,
      tick_awaiting_of_lt hs hn hfirst hlt, afterRequest_of_next, hrest, List.append_assoc, List.singleton_append]

/-- From its `start`, a decode takes the bytes of the entry's instruction that the source gives, and goes on from there. -/
theorem step_of_bytes {s : State} {bs : List Byte} {e : Entry} {n : Nat} (h : s.ReadyFor bs)
    (he : ∀ op ∈ bs.head?, lookup s.rom op = some e) (hk : bs.length ≤ operandCount e) (hn : bs.length + n = 3) :
    step s = decodeOn n (s.awaiting bs) := by
  rw [step_of_starting h.1, ← hn, ← State.awaiting_nil]
  exact decodeOn_awaiting h.1.2.1 n bs [] h.2 he hk

/-- A dispatch ends the decode, and so does the stop at a latch nothing wrote. -/
theorem afterRequest_complete (n : Nat) (s u : State) : afterRequest (decodeOn n) s (complete u) = complete u := by
  cases h : latchedInstr u with
  | none => simp [complete, h, afterRequest]
  | some i => simp [complete, h]

/-- From its `start`, a decode for which the source gives every byte of the entry's instruction dispatches it. -/
theorem step_of_whole {s : State} {op : Byte} {ops : List Byte} {e : Entry} (h : s.ReadyFor (op :: ops))
    (he : lookup s.rom op = some e) (hk : ops.length = operandCount e) : step s = complete (s.arrived (op :: ops)) := by
  obtain ⟨bs, b, hbs⟩ := (List.eq_nil_or_concat' (op :: ops)).resolve_left (List.cons_ne_nil op ops)
  have hlen : bs.length = operandCount e := by simpa [hk] using (congrArg List.length hbs).symm
  have htwo := operandCount_le_two e
  have hhead : ∀ x ∈ (bs ++ [b]).head?, lookup s.rom x = some e := by simpa [← hbs] using he
  rw [hbs] at h ⊢
  obtain ⟨hstart, hup⟩ := h
  rw [List.length_append, List.map_append] at hup
  obtain ⟨hbytes, hlast⟩ := ByteSource.upcoming_split (l := bs.map .byte) (by simpa using hup)
  obtain ⟨src, hn, -⟩ := ByteSource.next_of_upcoming hlast
  rw [List.length_map] at hbytes hn
  have hopcode : ∀ x ∈ bs.head?, lookup s.rom x = some e := by
    cases bs with
    | nil => simp
    | cons x xs => simpa using hhead
  rw [step_of_bytes (n := 2 - bs.length + 1) ⟨hstart, hbytes⟩ hopcode hlen.le (by omega),
    decodeOn_of_byte _ (State.busy_awaiting bs s) hn, tick_awaiting_of_eq hstart.2.1 hn hhead hlen.symm, afterRequest_complete]

/-- The latches of a Defined instruction whose every byte has arrived give its call (41_dispatch.md R145). -/
theorem complete_arrived_defined {s : State} {op : Byte} {ops : List Byte} {m : Mnemonic} {mode : Mode}
    (he : lookup s.rom op = some (.defined m mode)) (hk : ops.length = opLen mode) :
    ∃ a, argOf mode ops[0]? ops[1]? = some a ∧ a.mode = mode ∧
      complete (s.arrived (op :: ops)) =
        .next ((s.arrived (op :: ops)).deliver ⟨m, if m.noOperand then none else some a⟩) := by
  obtain ⟨a, ha, hmode⟩ := argOf_isSome (mode := mode) (lo := ops[0]?) (hi := ops[1]?) (by simp; omega) (by simp; omega)
  have hl : latchedInstr (s.arrived (op :: ops)) = some (instrOf m a) := by
    simp [latchedInstr, readOperand, State.arrived, he, ha]
  exact ⟨a, ha, hmode, by simp [complete, hl, exec_of_call (instrOf_call m a)]⟩

end Sys2Proof.Machine
end

section
/-! SUPPORT. What the ports show after a decode, and while a call or an error is presented. -/

namespace Sys2Proof

/-- The entry is Undefined, or its mode is Implied exactly where its mnemonic takes no Arg (30_encoding.md R87). -/
def Entry.impliedIsNoOperand : Entry → Bool
  | .defined m mode => (mode == .implied) == m.noOperand
  | .undefined => true

theorem opcodeTable_impliedIsNoOperand : opcodeTable.all Entry.impliedIsNoOperand = true := by decide +kernel

/-- In the table the Implied opcodes are those of the no-operand mnemonics. -/
theorem implied_iff_noOperand {op : Byte} {m : Mnemonic} {mode : Mode} (h : lookup opcodeRom op = some (.defined m mode)) :
    mode = .implied ↔ m.noOperand = true := by
  rw [lookup_opcodeRom] at h
  have hrow := List.all_eq_true.mp opcodeTable_impliedIsNoOperand _ (List.mem_of_getElem? h)
  have hiff : (mode == .implied) = m.noOperand := by simpa [Entry.impliedIsNoOperand] using hrow
  rw [← hiff, beq_iff_eq]

theorem Arg.eq_implied_of_mode {a : Arg} (h : a.mode = .implied) : a = .implied := by
  cases a <;> simp [Arg.mode] at h ⊢

end Sys2Proof

namespace Sys2Proof.Machine

/-- The payload the operand bytes of an instruction put on the bus (10_state.md R35): 0, the byte zero-extended, or the
address, high byte first. -/
def operandPayload : List Byte → Addr
  | [] => 0
  | [v] => v.setWidth 16
  | l :: h :: _ => h ++ l

/-- The Arg read from exactly the bytes of its mode shows their payload. -/
theorem busPayload_of_argOf {mode : Mode} {ops : List Byte} {a : Arg} (h : argOf mode ops[0]? ops[1]? = some a)
    (hk : ops.length = opLen mode) : busPayload a = operandPayload ops := by
  match ops with
  | [] => cases mode <;> cases hk <;> cases h <;> rfl
  | [v] => cases mode <;> cases hk <;> cases h <;> rfl
  | [l, h'] => cases mode <;> cases hk <;> cases h <;> rfl
  | _ :: _ :: _ :: _ => cases mode <;> cases hk

/-- A call without an Arg shows the payload of an Implied Arg, which is 0 (log entry 8). -/
theorem argPayload_deliver {m : Mnemonic} {a : Arg} (h : m.noOperand = true → a.mode = .implied) (s : State) :
    (s.deliver ⟨m, if m.noOperand then none else some a⟩).argPayload = busPayload a := by
  cases hno : m.noOperand with
  | false => rfl
  | true =>
    cases Arg.eq_implied_of_mode (h hno)
    rfl

/-- Settles O14: the step is the dispatch of the instruction all of whose bytes have arrived. -/
theorem dispatchPorts : Obligations.DispatchPorts := by
  intro s op ops m mode hrom hready he hk
  have he' : lookup s.rom op = some (.defined m mode) := hrom ▸ he
  obtain ⟨a, ha, hmode, hc⟩ := complete_arrived_defined he' hk
  refine ⟨_, (step_of_whole hready he' hk).trans hc, rfl, rfl, rfl, rfl, rfl, rfl, ?_, fun hno => ?_, ?_, ?_, ?_⟩
  · cases m.noOperand <;> rfl
  · simp [State.argMode, State.presentedArg, hno, hmode]
  · have himplied : m.noOperand = true → a.mode = .implied := fun hno => hmode.trans ((implied_iff_noOperand he).mpr hno)
    exact (argPayload_deliver himplied _).trans (busPayload_of_argOf ha hk)
  · simp [State.arrived, hk, Nat.add_assoc, Nat.add_comm 1]
  · simp [State.arrived, hk, Nat.add_comm 1]

/-- Settles O16: the first request of the decode is answered `StreamExhausted`. -/
theorem exhaustedAtOpcodeFetch : Obligations.ExhaustedAtOpcodeFetch := by
  rintro s ⟨hstart, hup⟩
  obtain ⟨src, hn, -⟩ := ByteSource.next_of_upcoming hup
  have hstep := (step_of_starting hstart).trans (decodeOn_of_exhausted 2 (State.busy_awaiting [] s) hstart.2.1 hn)
  exact ⟨_, hstep, rfl, rfl, rfl, rfl, rfl, rfl, rfl, rfl, rfl⟩

/-- Settles O19: the decode goes on to the request after the bytes that came, and stays there. -/
theorem suspensionKeepsProgress : Obligations.SuspensionKeepsProgress := by
  rintro s op ops m mode hrom ⟨hstart, hup⟩ he hk
  have he' : ∀ x ∈ (op :: ops).head?, lookup s.rom x = some (.defined m mode) := by simpa [hrom] using he
  have htwo : opLen mode ≤ 2 := operandCount_le_two (.defined m mode)
  obtain ⟨hbytes, hnil⟩ := ByteSource.upcoming_split (l := (op :: ops).map .byte) (r := []) (n := 1) (by simpa using hup)
  rw [List.length_map] at hbytes hnil
  have hstep : step s = .next (s.awaiting (op :: ops)) :=
    (step_of_bytes (n := 2 - (ops.length + 1) + 1) ⟨hstart, hbytes⟩ he' hk (by simp; omega)).trans
      (decodeOn_of_silent _ (State.busy_awaiting _ s) hstart.2.1 (ByteSource.next_of_upcoming_nil hnil))
  have hbusy := State.busy_awaiting (op :: ops) s
  have hphase : (s.awaiting (op :: ops)).phase = if ops.length = 0 then .opr1 else .opr2 := by
    simp [State.awaiting, lastPhase]
  have hnot : (s.awaiting (op :: ops)).phase ≠ .done := by rw [hphase]; split <;> simp
  obtain ⟨hd, herr, -⟩ := State.no_output_of_not_done hnot
  refine ⟨_, hstep, hphase, hbusy, hbusy, hd, herr, rfl, he' op rfl, rfl, ?_, ?_, rfl⟩
  · exact List.getElem?_eq_none (by simp; omega)
  · simp [State.awaiting, State.arrived, Nat.add_assoc, Nat.add_comm 1]

/-! ### The ports in any state -/

/-- A state that presents a call is one that `deliver` could have left. -/
theorem State.presentedCall_eq_some {s : State} {c : Call} :
    s.presentedCall = some c ↔ s.phase = .done ∧ s.outcome = some (.dispatched c) := by
  rw [← State.done_eq_true]
  unfold State.presentedCall
  split <;> simp_all

theorem State.presentedError_eq_some {s : State} {e : DecodeError} :
    s.presentedError = some e ↔ s.phase = .done ∧ s.outcome = some (.failed e) := by
  rw [← State.done_eq_true]
  unfold State.presentedError
  split <;> simp_all

/-- The error port shows the code and the info byte of the error presented (10_state.md R36). -/
theorem State.errorPort_of_presentedError {s : State} {e : DecodeError} (h : s.presentedError = some e) :
    s.errKind = e.kind ∧ s.errByte = e.info := by
  simp [State.errKind, State.errByte, h]

/-- Settles O32: both ports read the one outcome presented. -/
theorem errorAndDispatchExclude : Obligations.ErrorAndDispatchExclude := by
  intro s
  refine ⟨fun ⟨hd, he⟩ => ?_, fun he => ?_, fun hd => ?_, fun e hp ho => ?_⟩
  · obtain ⟨c, hc⟩ := Option.isSome_iff_exists.mp hd
    obtain ⟨e, he⟩ := Option.isSome_iff_exists.mp he
    have hboth := (State.presentedCall_eq_some.mp hc).2.symm.trans (State.presentedError_eq_some.mp he).2
    cases hboth
  · obtain ⟨e, he⟩ := Option.isSome_iff_exists.mp he
    refine ⟨(State.presentedError_eq_some.mp he).1, ?_⟩
    cases e with
    | streamExhausted => exact .inl ⟨he, State.errorPort_of_presentedError he⟩
    | undefinedOpcode b => exact .inr ⟨b, he, State.errorPort_of_presentedError he⟩
  · obtain ⟨c, hc⟩ := Option.isSome_iff_exists.mp hd
    exact (State.presentedCall_eq_some.mp hc).1
  · exact Option.isSome_iff_exists.mpr ⟨e, State.presentedError_eq_some.mpr ⟨hp, ho⟩⟩

/-- There are 13 mode indices (30_encoding.md R85). -/
theorem modeIndex_lt (mode : Mode) : mode.index.toNat < 13 := by cases mode <;> decide

/-- The strobes of an Arg are the one bit of its mode (10_state.md R38). -/
theorem strobesFor_getLsbD (a : Arg) (k : Fin 13) : (strobesFor a).getLsbD k = decide (k.val = a.mode.index.toNat) := by
  have hk := k.isLt
  rw [strobesFor, BitVec.getLsbD_shiftLeft, BitVec.getLsbD_one, Bool.eq_iff_iff]
  simp only [Bool.and_eq_true, Bool.not_eq_true', decide_eq_true_eq, decide_eq_false_iff_not]
  omega

/-- Settles O36: every wire of the accept logic reads the Arg presented. -/
theorem acceptStrobesOfPresentedArg : Obligations.AcceptStrobesOfPresentedArg := by
  refine fun s => ⟨fun a ha => ?_, fun hn => by simp [State.modeSel, hn]⟩
  obtain ⟨c, hc, harg⟩ := Option.bind_eq_some_iff.mp ha
  obtain ⟨m, a'⟩ := c
  cases harg
  have hmode : s.argMode = a.mode.index := by simp [State.argMode, ha]
  refine ⟨by simp [State.dispValid, hc], by simp [State.dispHasArg, hc], ?_, by simp [State.argPayload, hc], fun k => ?_⟩
  · rw [hmode]
    exact modeIndex_lt a.mode
  · rw [hmode, State.modeSel, ha]
    exact strobesFor_getLsbD a k

end Sys2Proof.Machine
end

section
/-! SUPPORT. Byte order on the bus, the refusal of a shared source, and the resumption of a suspended decode (20_memory.md). -/

namespace Sys2Proof

/-- Joining two bytes, high byte first, is `low + 256 * high` (20_memory.md R60). -/
theorem toNat_append_bytes (h l : Byte) : (h ++ l).toNat = l.toNat + 256 * h.toNat := by
  rw [BitVec.toNat_append, ← Nat.shiftLeft_add_eq_or_of_lt l.isLt, Nat.shiftLeft_eq]
  omega

/-- The modes with two operand bytes (30_encoding.md R81). -/
theorem mode_of_opLen_two {mode : Mode} (h : opLen mode = 2) :
    mode = .absolute ∨ mode = .absoluteX ∨ mode = .absoluteY ∨ mode = .indirect := by
  cases mode <;> simp [opLen] at h ⊢

/-- An operand that was read had every byte of its mode. -/
theorem opLen_le_of_argOf {mode : Mode} {ops : List Byte} {a : Arg} (h : argOf mode ops[0]? ops[1]? = some a) :
    opLen mode ≤ ops.length := by
  have htwo : opLen mode ≤ 2 := Machine.operandCount_le_two (.defined .NOP mode)
  by_contra hshort
  have hlt : ops.length < opLen mode := Nat.lt_of_not_le hshort
  match ops with
  | [] => simp [argOf_none_lo none hlt] at h
  | [l] => simp [argOf_none_hi (some l) hlt] at h
  | _ :: _ :: _ =>
    simp only [List.length_cons] at hlt
    omega

end Sys2Proof

namespace Sys2Proof.Machine

/-- Settles O13: the payload is the two bytes joined, high byte first, and no 2-byte mode belongs to a no-operand mnemonic. -/
theorem twoByteOperandIsLittleEndian : Obligations.TwoByteOperandIsLittleEndian := by
  intro s op l h m mode hrom hready he hlen
  have hmode := mode_of_opLen_two hlen
  have hno : m.noOperand = false := by
    rw [← Bool.not_eq_true, ← implied_iff_noOperand he]
    rintro rfl
    cases hlen
  obtain ⟨t, hstep, -, -, -, -, -, -, -, hargMode, hpayload, -⟩ := dispatchPorts s op [l, h] m mode hrom hready he hlen.symm
  exact ⟨t, hstep, by rw [hpayload, toNat_append_bytes], hargMode hno, hmode⟩

/-! ### A source that another decode drives too -/

/-- A decode whose source is shared is refused at its next request. -/
theorem decodeOn_of_shared (n : Nat) {s : State} (hb : s.busy = true) (hs : s.srcShared = true) :
    decodeOn (n + 1) s = .refused .sharedSource := by
  obtain ⟨k, hk⟩ := tick_of_busy hb
  have hw : afterWait s = none := by simp [afterWait, hs]
  rw [decodeOn_busy hb hw, hk, fetchThen_of_shared k hs]
  rfl

/-- After a pulse that is no reset, or after none, a decode that was in progress or about to begin is in progress. -/
theorem busy_takePulse {s : State} (h : s.busy = true ∨ (s.phase = .idle ∧ s.control.head? = some .start))
    (hr : ∀ p, s.control ≠ .reset :: p) : s.takePulse.busy = true := by
  rcases h with hb | ⟨hp, hstart⟩
  · cases hc : s.control with
    | nil => simpa [State.takePulse, hc] using hb
    | cons q p =>
      rw [takePulse_of_busy hb (fun hq => hr p (hq ▸ hc)) hc]
      exact hb
  · obtain ⟨p, hc⟩ := List.head?_eq_some_iff.mp hstart
    rw [takePulse_start_of_idle hp hc]
    rfl

/-- Where the decode does not stay as it is, a step is its pulse taken and the decode gone on with. -/
theorem step_of_takePulse {s : State} (h : decodeOn 3 s.nextMoment.takePulse ≠ .next s.nextMoment.takePulse) :
    step s = decodeOn 3 s.nextMoment.takePulse := by
  cases hc : s.control with
  | nil =>
    have ht : s.nextMoment.takePulse = s.nextMoment := by simp [State.takePulse, hc]
    rw [ht] at h ⊢
    rw [step_of_no_pulse hc]
    exact (continueStep_cases s.nextMoment).resolve_right fun hsilent => h hsilent.2
  | cons q p => exact step_of_pulse hc

/-- Settles O21: after its pulse the block makes a request, and that request is refused. -/
theorem sharedSourceRefused : Obligations.SharedSourceRefused := by
  intro s hs hreq hr
  have hb : s.nextMoment.takePulse.busy = true := busy_takePulse (s := s.nextMoment) hreq hr
  have hshared : s.nextMoment.takePulse.srcShared = true := (takePulse_frame s.nextMoment).2.2.1.trans hs
  have hd := decodeOn_of_shared 2 hb hshared
  rw [step_of_takePulse (by simp [hd]), hd]

/-! ### A decode of bytes that decode whole -/

/-- Where bytes decode to one instruction with none left over, they are the opcode and the operand bytes of its entry, and
once they have arrived the latches hold that instruction. -/
theorem latchedInstr_of_decode {s : State} {bs : List Byte} {i : Instr} (hrom : s.RomIntact) (h : decode bs = .ok (i, [])) :
    ∃ op ops e, bs = op :: ops ∧ lookup s.rom op = some e ∧ ops.length = operandCount e ∧
      latchedInstr (s.arrived bs) = some i := by
  rw [decode, ← hrom] at h
  cases bs with
  | nil => simp [decodeWith] at h
  | cons op ops =>
    cases he : lookup s.rom op with
    | none => simp [decodeWith, he] at h
    | some e =>
      refine ⟨op, ops, e, rfl, he, ?_⟩
      cases e with
      | undefined =>
        obtain ⟨rfl, rfl⟩ : .undefined op = i ∧ ops = [] := by simpa [decodeWith, he] using h
        exact ⟨rfl, by simp [latchedInstr, State.arrived, he]⟩
      | defined m mode =>
        cases ha : argOf mode ops[0]? ops[1]? with
        | none => simp [decodeWith, he, ha] at h
        | some a =>
          obtain ⟨rfl, hle⟩ : instrOf m a = i ∧ ops.length ≤ opLen mode := by simpa [decodeWith, he, ha] using h
          exact ⟨hle.antisymm (opLen_le_of_argOf ha), by simp [latchedInstr, readOperand, State.arrived, he, ha]⟩

/-- From its `start`, a decode for which the source gives the bytes of an instruction executes that instruction. -/
theorem step_of_decode {s : State} {bs : List Byte} {i : Instr} (hrom : s.RomIntact) (hready : s.ReadyFor bs)
    (h : decode bs = .ok (i, [])) : step s = exec i (s.arrived bs) := by
  obtain ⟨op, ops, e, rfl, he, hk, hl⟩ := latchedInstr_of_decode hrom h
  rw [step_of_whole hready he hk, complete, hl]

/-- An instruction executed ends its decode. -/
theorem exec_ends (i : Instr) (s : State) : ∃ t, exec i s = .next t ∧ t.busy = false := by
  rcases exec_cases i s with ⟨b, -, h⟩ | ⟨c, -, h⟩ <;> exact ⟨_, h, rfl⟩

/-- From its `start`, a decode for which the source gives the first bytes of an instruction goes on to the request after
them. -/
theorem step_of_first_bytes {s : State} {pre post : List Byte} {i : Instr} (hrom : s.RomIntact) (hready : s.ReadyFor pre)
    (h : decode (pre ++ post) = .ok (i, [])) (hpost : post ≠ []) :
    ∃ n, step s = decodeOn (n + 1) (s.awaiting pre) ∧ n + 1 ≤ 3 := by
  obtain ⟨op, ops, e, hbs, he, hk, -⟩ := latchedInstr_of_decode hrom h
  have htwo := operandCount_le_two e
  have hpre : pre.length ≤ operandCount e := by
    have hlen := congrArg List.length hbs
    have := List.length_pos_iff.mpr hpost
    simp only [List.length_append, List.length_cons] at hlen
    omega
  have hfirst : ∀ x ∈ pre.head?, lookup s.rom x = some e := by
    cases pre with
    | nil => simp
    | cons x xs =>
      cases hbs
      simpa using he
  exact ⟨2 - pre.length, step_of_bytes hready hfirst hpre (by omega), by omega⟩

/-! ### A decode suspended and resumed -/

/-- A decode whose next request meets a wait stays where it is, and the wait is over (log entry 2). -/
theorem decodeOn_of_wait (n : Nat) {s : State} {src : ByteSource} (hb : s.busy = true) (hs : s.srcShared = false)
    (hn : s.src.next = some (.wait, src)) : decodeOn (n + 1) s = .next { s with src := src } := by
  simp [decodeOn, hb, afterWait_eq_some.mpr ⟨hs, src, hn, rfl⟩]

/-- A decode that has ended makes no further request, however many it may still make. -/
theorem decodeOn_of_ended {n k : Nat} {s t : State} (h : decodeOn n s = .next t) (ht : t.busy = false) (hnk : n ≤ k) :
    decodeOn k s = .next t := by
  induction n generalizing s k with
  | zero =>
    cases h
    exact decodeOn_of_not_busy ht
  | succ n ih =>
    rcases decodeOn_next h with rfl | ⟨hb, hw, -⟩ | ⟨m, u, hm, hb, hw, hu, hrest⟩
    · exact decodeOn_of_not_busy ht
    · obtain ⟨-, src, -, rfl⟩ := afterWait_eq_some.mp hw
      exact absurd (ht.symm.trans hb) Bool.false_ne_true
    · cases hm
      obtain ⟨k, rfl⟩ : ∃ j, k = j + 1 := ⟨k - 1, by omega⟩
      rw [decodeOn_busy hb hw, hu, afterRequest_of_next, ih hrest (by omega)]

/-- A decode in progress that comes to its end without a pulse comes to it in one step, which is counted. -/
theorem step_of_ending_decode {u v : State} (hc : u.control = []) (hb : u.busy = true) (h : decodeOn 3 u = .next v)
    (hv : v.busy = false) : step u = .next v.nextMoment := by
  have huntouched := (decodeOn_consumed 3 h).untouched
  have hu : u.nextMoment = u.rebase 0 [] [] (u.moment + 1) := by simp [State.rebase, State.nextMoment, hc]
  have hv' : v.nextMoment = v.rebase 0 [] [] (u.moment + 1) := by
    simp [State.rebase, State.nextMoment, huntouched.control, huntouched.moment, hc]
  have hd : decodeOn 3 u.nextMoment = .next v.nextMoment := by rw [hu, hv', decodeOn_rebase, h, mapNext_next]
  have hne : v.nextMoment ≠ u.nextMoment := fun heq =>
    Bool.false_ne_true (hv.symm.trans ((congrArg State.busy heq).trans hb))
  have ht : u.nextMoment.takePulse = u.nextMoment := by simp [State.takePulse, hc]
  rw [step_of_takePulse (by simpa [ht, hd] using hne), ht, hd]

/-- A wait before the last byte of an instruction ends the step at the request after the bytes that came. -/
theorem step_of_wait_in_decode {s : State} {pre post : List Byte} {i : Instr} {x : ByteSource} (hrom : s.RomIntact)
    (hready : s.ReadyFor pre) (h : decode (pre ++ post) = .ok (i, [])) (hpost : post ≠ [])
    (hwait : (s.src.skip pre.length).next = some (.wait, x)) : step s = .next { s.awaiting pre with src := x } := by
  obtain ⟨n, hn, -⟩ := step_of_first_bytes hrom hready h hpost
  exact hn.trans (decodeOn_of_wait n (State.busy_awaiting pre s) hready.1.2.1 hwait)

/-- A decode that stands at a request before the last byte of its instruction ends, with the next step, as the decode read
whole does, one step later. -/
theorem step_of_resumed_decode {s : State} {pre post : List Byte} {i : Instr} (hrom : s.RomIntact)
    (hready : s.ReadyFor (pre ++ post)) (hc : s.control = [.start]) (h : decode (pre ++ post) = .ok (i, [])) (hpost : post ≠ []) :
    ∃ v, step s = .next v ∧ step (s.awaiting pre) = .next v.nextMoment := by
  obtain ⟨v, hv, hend⟩ := exec_ends i (s.arrived (pre ++ post))
  have hwhole : step s = .next v := (step_of_decode hrom hready h).trans hv
  obtain ⟨hstart, hup⟩ := hready
  obtain ⟨hpre, -⟩ := ByteSource.upcoming_split (l := pre.map .byte) (n := post.length) (by simpa using hup)
  rw [List.length_map] at hpre
  obtain ⟨n, hn, hle⟩ := step_of_first_bytes hrom ⟨hstart, hpre⟩ h hpost
  have hrest : decodeOn 3 (s.awaiting pre) = .next v := decodeOn_of_ended (hn ▸ hwhole) hend hle
  have hquiet : (s.awaiting pre).control = [] := congrArg List.tail hc
  exact ⟨v, hwhole, step_of_ending_decode hquiet (State.busy_awaiting pre s) hrest hend⟩

/-- Settles O20: at the wait both decodes stand at the request after the first part, with the same source to go on with. -/
theorem splitReadEqualsWholeRead : Obligations.SplitReadEqualsWholeRead := by
  intro s pre post i w x hrom hidle hs hc hdec hpost hpre hwait hrest
  have hstart : s.Starting := ⟨hidle, hs, by simp [hc]⟩
  obtain ⟨hfirst, hskip⟩ := ByteSource.upcoming_listed (pre.map .byte) x.answers x.thereafter
  generalize (⟨pre.map .byte ++ x.answers, x.thereafter⟩ : ByteSource) = y at hfirst hskip ⊢
  rw [List.length_map] at hfirst hskip
  have hup : y.upcoming (pre ++ post).length = (pre ++ post).map .byte := by
    rw [List.length_append, ByteSource.upcoming_add _ _ _ (by simp [hfirst]), hfirst, hskip, hrest, List.map_append]
  have hsplit := step_of_wait_in_decode (s := { s with src := w }) hrom ⟨hstart, hpre⟩ hdec hpost hwait
  have hmeet : { State.awaiting pre { s with src := w } with src := x } = State.awaiting pre { s with src := y } := by
    simp [State.awaiting, State.arrived, hskip]
  obtain ⟨v, hwhole, hresumed⟩ := step_of_resumed_decode (s := { s with src := y }) hrom ⟨hstart, hup⟩ hc hdec hpost
  exact ⟨_, v, hsplit.trans (congrArg _ hmeet), State.busy_awaiting pre _, hwhole, hresumed⟩

end Sys2Proof.Machine
end

section
/-! SUPPORT. The decoder and the encoder over byte lists, the two tables they are made from, and how they agree
(30_encoding.md). -/

namespace Sys2Proof

/-! ### The table of the decoder and the table of the encoder -/

/-- The encoder knows the byte as the entry does: it is the opcode of the entry's mnemonic in the entry's mode
(30_encoding.md R90), or one of the Undefined bytes (47_undefined.md R240). -/
def Entry.isListedAt (b : Byte) : Entry → Bool
  | .defined m mode => m.opcode mode == some b
  | .undefined => undefinedBytes.contains b

theorem opcodeTable_isListedAt : (opcodeTable.zipIdx.all fun r => r.1.isListedAt (BitVec.ofNat 8 r.2)) = true := by
  decide +kernel

/-- Every entry the lookup gives is one the encoder knows. -/
theorem Entry.isListedAt_of_lookup {op : Byte} {e : Entry} (h : lookup opcodeRom op = some e) : e.isListedAt op = true := by
  rw [lookup_opcodeRom, ← List.mk_mem_zipIdx_iff_getElem?] at h
  simpa using List.all_eq_true.mp opcodeTable_isListedAt _ h

/-- What the map of 30_encoding.md R88 leaves Undefined is one of the bytes of 47_undefined.md R240. -/
theorem undefinedBytes_contains_of_lookup {op : Byte} (h : lookup opcodeRom op = some .undefined) :
    undefinedBytes.contains op = true := Entry.isListedAt_of_lookup h

theorem Mnemonic.mem_all (m : Mnemonic) : m ∈ Mnemonic.all := by cases m <;> decide

theorem Mode.mem_all (mode : Mode) : mode ∈ Mode.all := by cases mode <;> decide

/-- The map of 30_encoding.md R88 defines a byte as a mnemonic in a mode where the byte is the opcode of the two. -/
theorem lookup_eq_defined_iff {op : Byte} {m : Mnemonic} {mode : Mode} :
    lookup opcodeRom op = some (.defined m mode) ↔ m.opcode mode = some op := by
  refine ⟨fun h => by simpa [Entry.isListedAt] using Entry.isListedAt_of_lookup h, fun h => ?_⟩
  have hrow := List.all_eq_true.mp (List.all_eq_true.mp Laws.EncodedRow.opcode_rows m m.mem_all) mode mode.mem_all
  simpa [h] using hrow

/-- No list of 30_encoding.md R90 has two opcodes in one mode. -/
theorem Mnemonic.opcode_of_forms (m : Mnemonic) : ∀ f ∈ m.forms, m.opcode f.1 = some f.2 := by cases m <;> decide

/-- The opcode of a mnemonic in a mode is the byte its list has for that mode. -/
theorem Mnemonic.opcode_eq_some_iff {m : Mnemonic} {mode : Mode} {op : Byte} :
    m.opcode mode = some op ↔ (mode, op) ∈ m.forms := by
  refine ⟨fun h => ?_, m.opcode_of_forms (mode, op)⟩
  obtain ⟨before, after, hforms, -⟩ := List.lookup_eq_some_iff.mp h
  simp [hforms]

theorem Mnemonic.forms_ne_nil (m : Mnemonic) : m.forms ≠ [] := by cases m <;> exact List.cons_ne_nil _ _

/-- Settles O7: both tables are read through the opcode of a mnemonic in a mode. -/
theorem opcodeTableAgreesWithMnemonicLists : Obligations.OpcodeTableAgreesWithMnemonicLists :=
  fun _ _ _ => lookup_eq_defined_iff.trans Mnemonic.opcode_eq_some_iff

/-- Settles O11: a no-operand mnemonic's one mode is Implied, and a mnemonic has one opcode in a mode. -/
theorem noOperandMnemonicsAreTheImpliedOnes : Obligations.NoOperandMnemonicsAreTheImpliedOnes := by
  refine ⟨fun _ _ _ => implied_iff_noOperand, fun op op' m mode mode' hno h h' => ?_, fun m => ?_, by decide, fun m a => ?_⟩
  · obtain rfl := (implied_iff_noOperand h).mpr hno
    obtain rfl := (implied_iff_noOperand h').mpr hno
    exact Option.some.inj ((lookup_eq_defined_iff.mp h).symm.trans (lookup_eq_defined_iff.mp h'))
  · obtain ⟨⟨mode, op⟩, hmem⟩ := List.exists_mem_of_ne_nil _ m.forms_ne_nil
    exact ⟨op, mode, (opcodeTableAgreesWithMnemonicLists op m mode).mpr hmem⟩
  · exact ⟨_, instrOf_call m a, rfl, rfl⟩

/-! ### The words of the table -/

/-- There are 56 mnemonic indices (30_encoding.md R86). -/
theorem Mnemonic.index_le (m : Mnemonic) : m.index.toNat ≤ 55 := by cases m <;> decide

/-- There are 13 mode indices (30_encoding.md R85). -/
theorem Mode.index_le (mode : Mode) : mode.index.toNat ≤ 12 := Nat.le_of_lt_succ (Machine.modeIndex_lt mode)

/-- An Arg has the operand bytes of its mode (30_encoding.md R81). -/
theorem Arg.bytes_length (a : Arg) : a.bytes.length = opLen a.mode := by cases a <;> rfl

/-- Settles O9: the three fields of a Defined word are its def bit and the two indices. -/
theorem romWordLayout : Obligations.RomWordLayout := by
  refine ⟨fun m mode => ?_, rfl, entryOf_toWord, Arg.bytes_length⟩
  obtain ⟨hdef, hmnem, hmode⟩ := defined_word_fields m.index mode.index
  exact ⟨hdef, hmnem, hmode, m.index_le, mode.index_le⟩

/-- Settles O10: every word of the table is the word of an entry. -/
theorem romInvariants : Obligations.RomInvariants := by
  intro op
  obtain ⟨e, he⟩ := lookup_opcodeRom_isSome op
  rw [lookup_opcodeRom] at he
  refine ⟨e.toWord, by simp [opcodeRom, he], ?_⟩
  cases e with
  | undefined => exact ⟨fun _ => rfl, fun h => absurd h (by decide)⟩
  | defined m mode =>
    obtain ⟨hdef, hmnem, hmode, hm, hk⟩ := romWordLayout.1 m mode
    refine ⟨fun h => absurd (hdef.symm.trans h) (by decide), fun _ => ?_⟩
    rw [hmnem, hmode]
    exact ⟨hm, hk⟩

/-! ### Operand bytes -/

theorem addrOf_bytes (a : Addr) : addrOf (a.extractLsb' 0 8) (a.extractLsb' 8 8) = a := BitVec.extractLsb'_append_extractLsb'

theorem addrOf_low (l h : Byte) : (addrOf l h).extractLsb' 0 8 = l := BitVec.extractLsb'_append_eq_right

theorem addrOf_high (l h : Byte) : (addrOf l h).extractLsb' 8 8 = h := BitVec.extractLsb'_append_eq_left

/-- The bytes of an Arg, whatever follows them, are read as that Arg. -/
theorem argOf_bytes (a : Arg) (rest : List Byte) : argOf a.mode (a.bytes ++ rest)[0]? (a.bytes ++ rest)[1]? = some a := by
  cases a <;> simp [argOf, Arg.mode, Arg.bytes, addrOf?, addrOf_bytes, offsetOf]

/-- An Arg that was read has the mode it was read in, and its bytes are the first ones. -/
theorem bytes_of_argOf {mode : Mode} {ops : List Byte} {a : Arg} (h : argOf mode ops[0]? ops[1]? = some a) :
    a.mode = mode ∧ ops = a.bytes ++ ops.drop (opLen mode) := by
  match ops with
  | [] => cases mode <;> cases h <;> exact ⟨rfl, rfl⟩
  | [l] => cases mode <;> cases h <;> exact ⟨rfl, rfl⟩
  | l :: h' :: rest => cases mode <;> cases h <;> simp [Arg.mode, Arg.bytes, addrOf_low, addrOf_high, opLen, offsetOf]

/-- The Relative offset is the byte, less 256 from 0x80 on (30_encoding.md R93). -/
theorem offsetOf_toInt (v : Byte) :
    (offsetOf v).toInt = if v.toNat < 0x80 then (v.toNat : Int) else (v.toNat : Int) - 256 := by
  rw [offsetOf, Int8.toInt_ofBitVec, BitVec.toInt_eq_toNat_cond]
  split <;> split <;> omega

/-- Settles O12: the reader's own equations, mode by mode, with the value of the Relative offset. -/
theorem readOperandPayloads : Obligations.ReadOperandPayloads := fun _ _ v _ _ =>
  ⟨rfl, rfl, rfl, rfl, rfl, rfl, rfl, rfl, ⟨offsetOf v, rfl, offsetOf_toInt v⟩, rfl, rfl, rfl, rfl⟩

/-! ### The decoder, entry by entry -/

theorem decode_undefined {op : Byte} (h : lookup opcodeRom op = some .undefined) (ops : List Byte) :
    decode (op :: ops) = .ok (.undefined op, ops) := by
  simp [decode, decodeWith, h]

theorem decode_defined {op : Byte} {ops : List Byte} {m : Mnemonic} {mode : Mode} {a : Arg}
    (h : lookup opcodeRom op = some (.defined m mode)) (ha : argOf mode ops[0]? ops[1]? = some a) :
    decode (op :: ops) = .ok (instrOf m a, ops.drop (opLen mode)) := by
  simp [decode, decodeWith, h, ha]

theorem decode_defined_short {op : Byte} {ops : List Byte} {m : Mnemonic} {mode : Mode}
    (h : lookup opcodeRom op = some (.defined m mode)) (ha : argOf mode ops[0]? ops[1]? = none) :
    decode (op :: ops) = .error .streamExhausted := by
  simp [decode, decodeWith, h, ha]

/-- Everything bytes that decode can be: an Undefined opcode, or a Defined one with the bytes of an Arg of its mode. -/
theorem decode_eq_ok {bs rest : List Byte} {i : Instr} (h : decode bs = .ok (i, rest)) :
    (∃ op, lookup opcodeRom op = some .undefined ∧ i = .undefined op ∧ bs = op :: rest) ∨
    (∃ op m a, lookup opcodeRom op = some (.defined m a.mode) ∧ i = instrOf m a ∧ bs = op :: (a.bytes ++ rest)) := by
  cases bs with
  | nil => cases h
  | cons op ops =>
    obtain ⟨e, he⟩ := lookup_opcodeRom_isSome op
    cases e with
    | undefined =>
      rw [decode_undefined he] at h
      cases h
      exact .inl ⟨op, he, rfl, rfl⟩
    | defined m mode =>
      cases ha : argOf mode ops[0]? ops[1]? with
      | none =>
        rw [decode_defined_short he ha] at h
        cases h
      | some a =>
        rw [decode_defined he ha] at h
        cases h
        obtain ⟨rfl, hops⟩ := bytes_of_argOf ha
        exact .inr ⟨op, m, a, he, rfl, congrArg _ hops⟩

/-- Settles O6: an Arg is read from the operand bytes exactly where there are as many as its mode has. -/
theorem lengthFixedByOpcode : Obligations.LengthFixedByOpcode := by
  refine fun op m mode h => ⟨fun bs hle => ?_, fun bs hlt => decode_defined_short h ?_⟩
  · obtain ⟨a, ha, hmode⟩ := argOf_isSome (mode := mode) (lo := bs[0]?) (hi := bs[1]?) (by simp; omega) (by simp; omega)
    refine ⟨a, hmode, decode_defined h ha, ?_⟩
    rw [List.length_cons, List.length_drop]
    omega
  · exact Option.eq_none_iff_forall_ne_some.mpr fun a ha => Nat.not_le_of_lt hlt (opLen_le_of_argOf ha)

/-! ### The encoder, row by row -/

namespace Laws.EncodedRow

/-- The family EncodedRow as one statement. -/
theorem of_instr : ∀ i : Instr, Statement i
  | .adc a => adc a | .and a => and a | .asl a => asl a | .bcc a => bcc a | .bcs a => bcs a | .beq a => beq a
  | .bit a => bit a | .bmi a => bmi a | .bne a => bne a | .bpl a => bpl a | .brk => brk | .bvc a => bvc a
  | .bvs a => bvs a | .clc => clc | .cld => cld | .cli => cli | .clv => clv | .cmp a => cmp a | .cpx a => cpx a
  | .cpy a => cpy a | .dec a => dec a | .dex => dex | .dey => dey | .eor a => eor a | .inc a => inc a | .inx => inx
  | .iny => iny | .jmp a => jmp a | .jsr a => jsr a | .lda a => lda a | .ldx a => ldx a | .ldy a => ldy a
  | .lsr a => lsr a | .nop => nop | .ora a => ora a | .pha => pha | .php => php | .pla => pla | .plp => plp
  | .rol a => rol a | .ror a => ror a | .rti => rti | .rts => rts | .sbc a => sbc a | .sec => sec | .sed => sed
  | .sei => sei | .sta a => sta a | .stx a => stx a | .sty a => sty a | .tax => tax | .tay => tay | .tsx => tsx
  | .txa => txa | .txs => txs | .tya => tya | .undefined b => undefined b

end Laws.EncodedRow

/-- An instruction with a call is the one its mnemonic and its Arg give; without an Arg it is the one of an Implied Arg. -/
theorem Instr.eq_instrOf_of_call {i : Instr} {c : Call} (h : i.call = some c) : i = instrOf c.mnem (c.arg.getD .implied) := by
  cases i <;> cases h <;> rfl

theorem Instr.eq_undefined_of_call {i : Instr} (h : i.call = none) : ∃ b, i = .undefined b := by
  cases i <;> cases h
  exact ⟨_, rfl⟩

/-- An instruction is an Undefined opcode, or a mnemonic with an Arg that has its row and its operand bytes. -/
theorem Instr.undefined_or_instrOf (i : Instr) :
    (∃ b, i = .undefined b) ∨ ∃ m a, i = instrOf m a ∧ i.row = .defined m a.mode ∧ i.operandBytes = a.bytes := by
  cases hc : i.call with
  | none => exact .inl (Instr.eq_undefined_of_call hc)
  | some c =>
    refine .inr ⟨c.mnem, c.arg.getD .implied, Instr.eq_instrOf_of_call hc, ?_⟩
    cases ha : c.arg <;> simp [Instr.row, Instr.operandBytes, hc, ha, Arg.mode, Arg.bytes]

/-- An instruction of a table row is encoded by the row's opcode and the bytes of its Arg. -/
theorem encode_instrOf {op : Byte} {m : Mnemonic} {a : Arg} (h : lookup opcodeRom op = some (.defined m a.mode)) :
    encode (instrOf m a) = op :: a.bytes := by
  have hopcode : (instrOf m a).opcode = m.opcode (if m.noOperand then .implied else a.mode) := by cases m <;> rfl
  cases hno : m.noOperand with
  | false => simp [encode, hopcode, hno, lookup_eq_defined_iff.mp h, Instr.operandBytes]
  | true =>
    have himplied := (implied_iff_noOperand h).mpr hno
    rw [himplied] at h
    cases Arg.eq_implied_of_mode himplied
    simp [encode, hopcode, hno, lookup_eq_defined_iff.mp h, Instr.operandBytes, Arg.bytes]

/-- The modes the family rules list for a mnemonic with an Arg are those in which it has an opcode. -/
theorem wf_instrOf (m : Mnemonic) (a : Arg) : (instrOf m a).wf = (m.noOperand || (m.opcode a.mode).isSome) := by
  cases m <;> cases a <;> rfl

/-! ### Both directions of the round trip -/

/-- Settles O4: the opcode finds the instruction's own row, and in its mode the operand bytes are read as its Arg. -/
theorem decodeEncodeRoundTrip : Obligations.DecodeEncodeRoundTrip := by
  intro i rest hwf
  obtain ⟨op, henc, hrow⟩ := Laws.EncodedRow.of_instr i hwf
  obtain ⟨b, rfl⟩ | ⟨m, a, hi, hr, hbytes⟩ := i.undefined_or_instrOf
  · cases henc
    exact decode_undefined hrow rest
  · rw [hr] at hrow
    rw [henc, hbytes, List.cons_append, decode_defined hrow (argOf_bytes a rest), ← a.bytes_length, List.drop_left, hi]

/-- Settles O5: the row of the opcode that was decoded is where the encoder has it. -/
theorem encodeDecodeRoundTrip : Obligations.EncodeDecodeRoundTrip := by
  intro bs rest i h
  obtain ⟨op, hrow, rfl, rfl⟩ | ⟨op, m, a, hrow, rfl, rfl⟩ := decode_eq_ok h
  · exact ⟨undefinedBytes_contains_of_lookup hrow, rfl⟩
  · exact ⟨by simp [wf_instrOf, lookup_eq_defined_iff.mp hrow], by rw [encode_instrOf hrow, List.cons_append]⟩

/-- Settles O3: the words of 95_test_vectors.md, decoded. -/
theorem specWordsDecode : Obligations.SpecWordsDecode :=
  ⟨rfl, rfl, rfl, rfl, rfl, rfl, rfl, rfl, rfl, rfl, rfl, rfl⟩

end Sys2Proof

namespace Sys2Proof.Machine

/-- Bytes placed are the ones the next step will get (log entry 10). -/
theorem State.readyFor_place (s : State) (bs rest : List Byte) : (s.place (bs ++ rest)).ReadyFor bs := by
  refine ⟨⟨rfl, rfl, rfl⟩, ?_⟩
  have hlisted := (ByteSource.upcoming_listed (bs.map .byte) (rest.map .byte ++ s.src.answers) s.src.thereafter).1
  simpa using hlisted

/-- What the decoder reads from a table word, it reads from the word's bytes. -/
theorem decode_of_decodeTableWord {nbits w : Nat} {i : Instr} (h : decodeTableWord nbits w = some i) :
    ∃ rest, decode (tableBytes nbits w) = .ok (i, rest) := by
  unfold decodeTableWord at h
  split at h
  · cases h
    exact ⟨_, ‹_›⟩
  · cases h

/-- Settles O2: the bytes placed begin with the encoding of the instruction, which decodes with none left over. -/
theorem placedInstructionRunsNext : Obligations.PlacedInstructionRunsNext := by
  intro s nbits w i h
  obtain ⟨rest, hdec⟩ := decode_of_decodeTableWord h
  obtain ⟨hwf, hbytes⟩ := encodeDecodeRoundTrip _ _ _ hdec
  have hwhole : decode (encode i) = .ok (i, []) := by simpa using decodeEncodeRoundTrip i [] hwf
  rw [State.withFetchWord, hbytes, List.take_left]
  exact step_of_decode rfl (s.readyFor_place (encode i) rest) hwhole

end Sys2Proof.Machine
end

section
/-! SUPPORT. The operand reader: a read that the source cuts short, and the accept operation of an Arg
(40_operand_reader.md R124 to R127). -/

namespace Sys2Proof.Machine

/-- From its `start`, a decode whose source ends before the entry's instruction does ends with `StreamExhausted` at the
request after the bytes that came (40_operand_reader.md R124). -/
theorem step_of_short {s : State} {op : Byte} {ops : List Byte} {e : Entry} (h : s.EndsAfter (op :: ops))
    (he : lookup s.rom op = some e) (hk : ops.length < operandCount e) :
    ∃ src, step s = .next (State.raise .streamExhausted { s.awaiting (op :: ops) with src := src }) := by
  obtain ⟨hstart, hup⟩ := h
  have htwo := operandCount_le_two e
  obtain ⟨hbytes, hend⟩ := ByteSource.upcoming_split (l := (op :: ops).map .byte) (r := [.exhausted]) (n := 1)
    (by simpa using hup)
  rw [List.length_map] at hbytes hend
  obtain ⟨src, hn, -⟩ := ByteSource.next_of_upcoming hend
  have hread : step s = decodeOn (2 - (ops.length + 1) + 1) (s.awaiting (op :: ops)) :=
    step_of_bytes ⟨hstart, hbytes⟩ (by simpa using he) hk (by simp; omega)
  exact ⟨src, hread.trans (decodeOn_of_exhausted _ (State.busy_awaiting _ s) hstart.2.1 hn)⟩

/-- Settles O17: the error is raised where the decode stands, with the cursor past every byte that came. -/
theorem partialReadStaysConsumed : Obligations.PartialReadStaysConsumed := by
  intro s op ops m mode hrom hends he hk
  have he' : lookup s.rom op = some (.defined m mode) := hrom ▸ he
  obtain ⟨src, hstep⟩ := step_of_short hends he' hk
  refine ⟨_, hstep, rfl, rfl, rfl, rfl, rfl, rfl, rfl, ?_⟩
  simp [State.awaiting, State.arrived, Nat.add_assoc, Nat.add_comm 1]

/-- Settles O35: one equation of `accept` for each mode, and the one bit of the mode in the strobes. -/
theorem acceptSelectsOwnMode : Obligations.AcceptSelectsOwnMode := fun _ _ _ _ _ =>
  ⟨⟨rfl, rfl, rfl, rfl, rfl, rfl, rfl, rfl, rfl, rfl, rfl, rfl, rfl⟩, strobesFor_getLsbD⟩

/-- Settles O37: whatever its mode, an Arg selects an operation left at its default. -/
theorem defaultModeOperationsAreUnsupported : Obligations.DefaultModeOperationsAreUnsupported := by
  intro _ a
  cases a <;> rfl

end Sys2Proof.Machine
end

section
/-! SUPPORT. The dispatcher (41_dispatch.md): the instruction a step executes, the one call it makes, what an Undefined opcode
does instead, and that no call made before has a say. -/

namespace Sys2Proof

/-- The map of 30_encoding.md R88 leaves Undefined exactly the bytes of 47_undefined.md R240. -/
theorem lookup_eq_undefined_iff {op : Byte} : lookup opcodeRom op = some .undefined ↔ op ∈ undefinedBytes := by
  refine ⟨fun h => by simpa using undefinedBytes_contains_of_lookup h, fun h => ?_⟩
  simpa using List.all_eq_true.mp Laws.EncodedRow.undefined_rows op h

theorem undefinedBytes_nodup : undefinedBytes.Nodup := by decide +kernel

/-- Settles O8: every byte has an entry, and the Undefined bytes are those listed. -/
theorem lookupTotal : Obligations.LookupTotal := by
  refine ⟨fun op => ?_, rfl, undefinedBytes_nodup⟩
  obtain ⟨e, he⟩ := lookup_opcodeRom_isSome op
  cases e with
  | defined m mode => exact .inl ⟨m, mode, he, fun hmem => by simp [lookup_eq_undefined_iff.mpr hmem] at he⟩
  | undefined => exact .inr ⟨he, lookup_eq_undefined_iff.mp he⟩

end Sys2Proof

namespace Sys2Proof.Machine

/-! ### The instruction a step executes -/

/-- Settles O1: the bytes that decode whole are those of the entry, and the latches then hold the instruction. -/
theorem stepRunsDecodedInstruction : Obligations.StepRunsDecodedInstruction :=
  fun _ _ _ hrom hready hdec => step_of_decode hrom hready hdec

/-- Settles O15: the opcode alone decodes as an Undefined instruction, whose execution raises the error. -/
theorem undefinedOpcodeTakesOneByte : Obligations.UndefinedOpcodeTakesOneByte := by
  intro s op hrom hready hmem
  have hdec : decode [op] = .ok (.undefined op, []) := decode_undefined (lookup_eq_undefined_iff.mpr hmem) []
  exact ⟨_, step_of_decode hrom hready hdec, rfl, rfl, rfl, rfl, rfl, rfl, rfl, rfl, rfl, rfl, rfl, rfl⟩

/-! ### What one dispatch does -/

/-- An instruction with a call makes that call and presents it with the answer of the operation the instruction selects. -/
theorem execCalls_of_call {i : Instr} {m : Mnemonic} {arg : Option Arg} {answer : InstrInterpreter Output → Output}
    (hcall : i.call = some ⟨m, arg⟩) (hanswer : ∀ ci, invoke ci i = some (answer ci)) : ExecCalls i m arg answer := by
  intro s
  have hresult : (s.deliver ⟨m, arg⟩).result = answer (Config.consumer.ops s.calls) := by
    simp [State.result, answerTo_of_call _ hcall, hanswer]
  exact ⟨_, exec_of_call hcall s, rfl, rfl, rfl, rfl, hresult, rfl, rfl, rfl, rfl, rfl, rfl, rfl, rfl, rfl, rfl, rfl⟩

/-- Settles O45: each load and store has the call and the answer of its own name. -/
theorem loadStoreDispatch : Obligations.LoadStoreDispatch := by
  intro a
  and_intros <;> exact execCalls_of_call rfl fun _ => rfl

/-- Settles O46: each ALU instruction has the call and the answer of its own name. -/
theorem aluDispatch : Obligations.AluDispatch := by
  intro a
  and_intros <;> exact execCalls_of_call rfl fun _ => rfl

/-- Settles O47: each read-modify-write instruction has the call and the answer of its own name. -/
theorem readModifyWriteDispatch : Obligations.ReadModifyWriteDispatch := by
  intro a
  and_intros <;> exact execCalls_of_call rfl fun _ => rfl

/-- Settles O48: each jump and branch has the call and the answer of its own name. -/
theorem jumpAndBranchDispatch : Obligations.JumpAndBranchDispatch := by
  intro a
  and_intros <;> exact execCalls_of_call rfl fun _ => rfl

/-- Settles O49: each of RTS, RTI and BRK has the call and the answer of its own name. -/
theorem noOperandControlDispatch : Obligations.NoOperandControlDispatch := by
  unfold Obligations.NoOperandControlDispatch
  and_intros <;> exact execCalls_of_call rfl fun _ => rfl

/-- Settles O50: each register, flag and stack instruction has the call and the answer of its own name. -/
theorem impliedDispatch : Obligations.ImpliedDispatch := by
  unfold Obligations.ImpliedDispatch
  and_intros <;> exact execCalls_of_call rfl fun _ => rfl

/-- Settles O51: an Undefined opcode raises its error, which writes the phase and the outcome and nothing else. -/
theorem undefinedDispatch : Obligations.UndefinedDispatch := fun b s =>
  ⟨_, exec_undefined b s, rfl, rfl, rfl, rfl, rfl, rfl, rfl, rfl, rfl, rfl, rfl, rfl, rfl, rfl, rfl, rfl, rfl⟩

/-! ### The calls of one step -/

/-- From `s` to `t` no call was made, or one, which `t` presents (41_dispatch.md R145, R149). -/
def CallsAtMostOnce (s t : State) : Prop :=
  t.calls = s.calls ∨ ∃ c : Call, t.calls = s.calls ++ [c] ∧ t.presentedCall = some c ∧ t.outcome = some (.dispatched c)

theorem exec_callsAtMostOnce {i : Instr} {s t : State} (h : exec i s = .next t) : CallsAtMostOnce s t := by
  rcases exec_cases i s with ⟨b, -, he⟩ | ⟨c, -, he⟩ <;> rw [he] at h <;> cases h
  · exact .inl rfl
  · exact .inr ⟨c, rfl, rfl, rfl⟩

theorem complete_callsAtMostOnce {s t : State} (h : complete s = .next t) : CallsAtMostOnce s t := by
  obtain ⟨i, -, he⟩ := complete_next h
  exact exec_callsAtMostOnce he

theorem readMore_callsAtMostOnce {k : Nat} {p : Phase} {s t : State} (h : readMore k p s = .next t) :
    CallsAtMostOnce s t := by
  obtain ⟨e, -, ⟨-, rfl⟩ | ⟨-, hc⟩⟩ := readMore_next h
  · exact .inl rfl
  · exact complete_callsAtMostOnce hc

theorem afterOpcode_callsAtMostOnce {b : Byte} {s t : State} (h : afterOpcode b s = .next t) : CallsAtMostOnce s t := by
  unfold afterOpcode at h
  split at h
  · exact (readMore_callsAtMostOnce h :)
  · cases h

/-- A request makes no call but in what follows a byte. -/
theorem fetchThen_callsAtMostOnce {k : Byte → State → StepOutcome}
    (hk : ∀ {b : Byte} {u t : State}, k b u = .next t → CallsAtMostOnce u t) {s t : State} (h : fetchThen k s = .next t) :
    CallsAtMostOnce s t := by
  obtain ⟨-, ⟨b, src, -, hb⟩ | ⟨src, -, rfl⟩⟩ := fetchThen_next h
  · exact (hk hb :)
  · exact .inl rfl

theorem tick_callsAtMostOnce {s t : State} (h : tick s = .next t) : CallsAtMostOnce s t := by
  unfold tick at h
  split at h
  · cases h; exact .inl rfl
  · cases h; exact .inl rfl
  · exact fetchThen_callsAtMostOnce afterOpcode_callsAtMostOnce h
  · exact fetchThen_callsAtMostOnce (k := afterLow) readMore_callsAtMostOnce h
  · exact fetchThen_callsAtMostOnce (k := afterHigh) complete_callsAtMostOnce h

/-- A state that presents a call is in no decode. -/
theorem State.busy_of_presentedCall {s : State} {c : Call} (h : s.presentedCall = some c) : s.busy = false :=
  State.busy_eq_false.mpr (.inr (State.presentedCall_eq_some.mp h).1)

/-- A decode makes at most one call: the call ends it. -/
theorem decodeOn_callsAtMostOnce (n : Nat) {s t : State} (h : decodeOn n s = .next t) : CallsAtMostOnce s t := by
  induction n generalizing s with
  | zero => cases h; exact .inl rfl
  | succ n ih =>
    rcases decodeOn_next h with rfl | ⟨-, hw, -⟩ | ⟨m, u, hm, -, -, hu, hrest⟩
    · exact .inl rfl
    · obtain ⟨-, src, -, rfl⟩ := afterWait_eq_some.mp hw
      exact .inl rfl
    · cases hm
      rcases tick_callsAtMostOnce hu with hnone | ⟨c, hc, hpresented, hout⟩
      · simpa only [CallsAtMostOnce, hnone] using ih hrest
      · rw [decodeOn_of_not_busy (State.busy_of_presentedCall hpresented)] at hrest
        cases hrest
        exact .inr ⟨c, hc, hpresented, hout⟩

theorem step_callsAtMostOnce {s t : State} (h : step s = .next t) : CallsAtMostOnce s t := by
  simpa [CallsAtMostOnce] using decodeOn_callsAtMostOnce 3 (step_next h)

/-- Settles O31: one call ends the decode, and with a call presented no error is. -/
theorem atMostOneCallPerStep : Obligations.AtMostOneCallPerStep := by
  intro s t h
  have hcalls := step_callsAtMostOnce h
  refine ⟨hcalls, fun herr => hcalls.resolve_right ?_⟩
  rintro ⟨c, -, hpresented, -⟩
  exact (errorAndDispatchExclude t).1 ⟨by simp [State.dispValid, hpresented], herr⟩

/-! ### A step does not look at the calls made before -/

section
variable (k : Nat) (cs : List Call) (p : List Pulse) (m : Nat)

theorem continueStep_rebase (s : State) :
    continueStep (s.rebase k cs p m) = mapNext (State.rebase k cs p m) (continueStep s) := by
  unfold continueStep
  rw [State.rebase_busy, afterWait_rebase, tick_rebase]
  cases s.busy with
  | false => rfl
  | true =>
    cases afterWait s with
    | some u => rfl
    | none =>
      cases tick s with
      | next u => exact decodeOn_rebase k cs p m 2 u
      | fault r => rfl
      | refused r => rfl

theorem State.begin_rebase (s : State) : (s.rebase k cs p m).begin = s.begin.rebase k cs p m := by
  unfold State.begin
  rw [State.rebase_phase]
  cases s.phase <;> rfl

theorem State.acknowledge_rebase (s : State) : (s.rebase k cs p m).acknowledge = s.acknowledge.rebase k cs p m := by
  unfold State.acknowledge
  rw [State.rebase_phase]
  cases s.phase <;> rfl

theorem takePulse_rebase {s : State} {q : Pulse} (hc : s.control = q :: p) :
    (s.rebase k cs (q :: p) m).takePulse = s.takePulse.rebase k cs p m := by
  unfold State.takePulse
  rw [hc]
  cases q with
  | start => exact State.begin_rebase k cs p m { s with control := p }
  | ack => exact State.acknowledge_rebase k cs p m { s with control := p }
  | reset => rfl

end

/-- A step from the same block with other bytes consumed and other calls made before, at another moment, is the same step. -/
theorem step_rebase (k : Nat) (cs : List Call) (m : Nat) (s : State) :
    step (s.rebase k cs s.control m) = mapNext (State.rebase k cs s.control.tail (m + 1)) (step s) := by
  cases hc : s.control with
  | nil =>
    rw [step_of_no_pulse hc, step_of_no_pulse (s := s.rebase k cs [] m) rfl]
    exact continueStep_rebase k cs [] (m + 1) s.nextMoment
  | cons q p =>
    have ht := takePulse_rebase k cs p (m + 1) (s := s.nextMoment) hc
    rw [step_of_pulse hc, step_of_pulse (s := s.rebase k cs (q :: p) m) rfl]
    exact (congrArg (decodeOn 3) ht).trans (decodeOn_rebase k cs p (m + 1) 3 _)

/-- A step with the calls `cs` made before is the step with none made before, moved to where they were made. -/
theorem step_of_calls (s : State) (cs : List Call) :
    step { s with calls := cs } =
      mapNext (State.rebase 0 cs s.control.tail (s.moment + 1)) (step { s with calls := [] }) := by
  rw [← step_rebase 0 cs s.moment { s with calls := [] }]
  simp [State.rebase]

/-- Settles O34: both steps are the step with no call made before, moved to the one history and to the other. -/
theorem consumptionIndependentOfConsumer : Obligations.ConsumptionIndependentOfConsumer := by
  intro s t history h
  have hs : step s = _ := step_of_calls s s.calls
  cases hw : step { s with calls := [] } with
  | next w =>
    rw [hs, hw] at h
    cases h
    have hv : step { s with calls := history } = .next (w.rebase 0 history s.control.tail (s.moment + 1)) := by
      rw [step_of_calls s history, hw, mapNext_next]
    refine ⟨_, hv, rfl, rfl, rfl, rfl, rfl, rfl, rfl, rfl, rfl, rfl, rfl, ?_⟩
    rcases step_callsAtMostOnce hw with hnone | ⟨c, hc, -, -⟩
    · exact .inl (by simp [State.rebase, hnone])
    · exact .inr ⟨c, by simp [State.rebase, hc]⟩
  | fault r => simp [hs, hw] at h
  | refused r => simp [hs, hw] at h

end Sys2Proof.Machine
end

section
/-! SUPPORT. A decode whose opcode is Defined: the one call it makes, the read that is cut short, and the error it cannot come
to. Together they are the rule of a mnemonic that takes an Arg (42_load_store.md to 45_control.md). -/

namespace Sys2Proof.Machine

/-! ### Never `UndefinedOpcode` -/

/-- The opcode has arrived and is a Defined one, and nothing has been raised against it (41_dispatch.md R143). -/
structure State.PastDefinedOpcode (s : State) : Prop where
  notOpc : s.phase ≠ .opc
  defined : ∃ m mode, s.ent = some (.defined m mode)
  notUndefined : ∀ b, s.outcome ≠ some (.failed (.undefinedOpcode b))

/-- A dispatch with a Defined entry latched delivers a call. -/
theorem complete_defined_next {s t : State} {m : Mnemonic} {mode : Mode} (he : s.ent = some (.defined m mode))
    (h : complete s = .next t) : ∃ c, t = s.deliver c := by
  obtain ⟨i, hi, hx⟩ := complete_next h
  obtain ⟨a, -, rfl⟩ : ∃ a, readOperand mode s = some a ∧ instrOf m a = i := by simpa [latchedInstr, he] using hi
  rw [exec_of_call (instrOf_call m a)] at hx
  cases hx
  exact ⟨_, rfl⟩

theorem complete_pastDefinedOpcode {s t : State} (h : complete s = .next t)
    (he : ∃ m mode, s.ent = some (.defined m mode)) : t.PastDefinedOpcode := by
  obtain ⟨m, mode, hent⟩ := he
  obtain ⟨c, rfl⟩ := complete_defined_next hent h
  exact ⟨by simp [State.deliver], ⟨m, mode, hent⟩, by simp [State.deliver]⟩

theorem raise_exhausted_pastDefinedOpcode {s : State} (he : ∃ m mode, s.ent = some (.defined m mode)) :
    (s.raise .streamExhausted).PastDefinedOpcode :=
  ⟨by simp [State.raise], he, by simp [State.raise]⟩

/-- A request for an operand byte of a Defined opcode ends in a call, in `StreamExhausted`, or at the next request. -/
theorem tick_pastDefinedOpcode {s t : State} (h : tick s = .next t) (hs : s.PastDefinedOpcode) : t.PastDefinedOpcode := by
  obtain ⟨hopc, hdef, hundef⟩ := hs
  unfold tick at h
  split at h
  · cases h; exact ⟨hopc, hdef, hundef⟩
  · cases h; exact ⟨hopc, hdef, hundef⟩
  · exact absurd ‹_› hopc
  · obtain ⟨-, ⟨b, src, -, hb⟩ | ⟨src, -, rfl⟩⟩ := fetchThen_next h
    · obtain ⟨e, -, ⟨-, rfl⟩ | ⟨-, hc⟩⟩ := readMore_next hb
      · exact ⟨by simp, hdef, hundef⟩
      · exact complete_pastDefinedOpcode hc hdef
    · exact raise_exhausted_pastDefinedOpcode hdef
  · obtain ⟨-, ⟨b, src, -, hb⟩ | ⟨src, -, rfl⟩⟩ := fetchThen_next h
    · exact complete_pastDefinedOpcode hb hdef
    · exact raise_exhausted_pastDefinedOpcode hdef

theorem afterWait_pastDefinedOpcode {s t : State} (h : afterWait s = some t) (hs : s.PastDefinedOpcode) :
    t.PastDefinedOpcode := by
  obtain ⟨-, src, -, rfl⟩ := afterWait_eq_some.mp h
  exact ⟨hs.notOpc, hs.defined, hs.notUndefined⟩

/-- From its `start`, a decode to which the source gives a Defined opcode goes past it, whatever the source does then. -/
theorem step_pastDefinedOpcode {s t : State} {op : Byte} {m : Mnemonic} {mode : Mode} (hready : s.ReadyFor [op])
    (he : lookup s.rom op = some (.defined m mode)) (h : step s = .next t) : t.PastDefinedOpcode := by
  rcases Nat.eq_zero_or_pos (opLen mode) with hzero | hpos
  · rw [step_of_whole hready he hzero.symm] at h
    exact complete_pastDefinedOpcode h ⟨m, mode, he⟩
  · have hread : step s = decodeOn 2 (s.awaiting [op]) :=
      step_of_bytes (e := .defined m mode) hready (by simpa using he) hpos rfl
    have hfirst : (s.awaiting [op]).PastDefinedOpcode := ⟨by simp [State.awaiting, lastPhase], ⟨m, mode, he⟩, nofun⟩
    exact decodeOn_keeps (P := State.PastDefinedOpcode) (fun _ _ => afterWait_pastDefinedOpcode)
      (fun _ _ => tick_pastDefinedOpcode) 2 (hread ▸ h) hfirst

/-! ### The rule of a mnemonic that takes an Arg -/

/-- From its `start`, a decode for which the source gives a Defined opcode and its operand bytes executes the instruction
whose call is the mnemonic with the Arg read (41_dispatch.md R144, R145). -/
theorem step_of_arg_instr {s : State} {op : Byte} {ops : List Byte} {m : Mnemonic} {mode : Mode} {mk : Arg → Instr}
    (hrom : s.RomIntact) (hready : s.ReadyFor (op :: ops)) (he : lookup opcodeRom op = some (.defined m mode))
    (hk : ops.length = opLen mode) (hcall : ∀ a, (mk a).call = some ⟨m, some a⟩) :
    ∃ a, argOf mode ops[0]? ops[1]? = some a ∧ a.mode = mode ∧ step s = exec (mk a) (s.arrived (op :: ops)) := by
  obtain ⟨a, ha, hmode⟩ := argOf_isSome (mode := mode) (lo := ops[0]?) (hi := ops[1]?) (by simp; omega) (by simp; omega)
  have hinstr : mk a = instrOf m a := Instr.eq_instrOf_of_call (hcall a)
  have hdec : decode (op :: ops) = .ok (mk a, []) := by rw [hinstr, decode_defined he ha, ← hk, List.drop_length]
  exact ⟨a, ha, hmode, step_of_decode hrom hready hdec⟩

/-- A mnemonic follows its rule where its instructions make its call, the operation of its name answers them, and the rule
lists the opcodes of 30_encoding.md R90. -/
theorem followsArgRule_of_call {mk : Arg → Instr} {m : Mnemonic} {index : BitVec 6}
    {answer : InstrInterpreter Output → Arg → Output} {forms : List (Byte × Mode)}
    (hcall : ∀ a, (mk a).call = some ⟨m, some a⟩) (hanswer : ∀ ci a, invoke ci (mk a) = some (answer ci a))
    (hindex : m.index = index) (hforms : (m.forms.map Prod.swap).Perm forms) : FollowsArgRule mk m index answer forms := by
  have hlookup (op : Byte) (mode : Mode) : lookup opcodeRom op = some (.defined m mode) ↔ (op, mode) ∈ forms := by
    rw [opcodeTableAgreesWithMnemonicLists, ← hforms.mem_iff, List.mem_map_swap]
  refine ⟨hlookup, fun s op mode hrom hmem => ?_⟩
  have he := (hlookup op mode).mpr hmem
  have he' : lookup s.rom op = some (.defined m mode) := hrom ▸ he
  refine ⟨fun ops hk hready => ?_, fun ops hk hends => ?_, fun t b hready hstep herr => ?_⟩
  · obtain ⟨a, ha, hmode, hstep⟩ := step_of_arg_instr hrom hready he hk hcall
    obtain ⟨t, hexec, -, hvalid, hnoErr, hpresented, hresult, hcalls, hsame⟩ :=
      execCalls_of_call (hcall a) (hanswer · a) (s.arrived (op :: ops))
    obtain ⟨-, -, -, -, -, -, -, hcursor, -⟩ := hsame
    refine ⟨a, t, ha, hmode, hstep.trans hexec, hexec, hvalid, hnoErr, ?_, ?_, hpresented, hresult, hcalls, ?_⟩
    · simpa [State.dispMnem, hpresented] using hindex
    · simp [State.dispHasArg, hpresented]
    · rw [hcursor, ← hk]
      simp [State.arrived, Nat.add_assoc, Nat.add_comm 1]
  · obtain ⟨src, hshort⟩ := step_of_short hends he' hk
    obtain ⟨t, hstep, -, -, -, -, hvalid, -, hcalls, hcursor⟩ := partialReadStaysConsumed s op ops m mode hrom hends he hk
    cases hshort.symm.trans hstep
    exact ⟨_, hstep, rfl, hvalid, hcalls, hcursor⟩
  · exact (step_pastDefinedOpcode hready he' hstep).notUndefined b (State.presentedError_eq_some.mp herr).2

/-- Settles O38: each of the six has the call, the operation and the index of its own name, and R90 lists the opcodes of its
rule. -/
theorem loadStoreRules : Obligations.LoadStoreRules := by
  refine ⟨?_, ?_, ?_, ?_, ?_, ?_⟩ <;>
    exact followsArgRule_of_call (fun _ => rfl) (fun _ _ => rfl) rfl (by decide)

end Sys2Proof.Machine
end

section
/-! The arithmetic, logic and compare mnemonics (43_alu.md R170 to R178). -/

namespace Sys2Proof.Machine

/-- Settles O39: each of the nine has the call, the operation and the index of its own name, and R90 lists the opcodes of its
rule. -/
theorem aluRules : Obligations.AluRules := by
  refine ⟨?_, ?_, ?_, ?_, ?_, ?_, ?_, ?_, ?_⟩ <;>
    exact followsArgRule_of_call (fun _ => rfl) (fun _ _ => rfl) rfl (by decide)

end Sys2Proof.Machine
end

section
/-! The shifts, rotates, increments and decrements, their Accumulator forms among them (44_rmw.md R180 to R185). -/

namespace Sys2Proof.Machine

/-- Settles O40: each of the six has the call, the operation and the index of its own name, and R90 lists the opcodes of its
rule. -/
theorem readModifyWriteRules : Obligations.ReadModifyWriteRules := by
  refine ⟨?_, ?_, ?_, ?_, ?_, ?_⟩ <;>
    exact followsArgRule_of_call (fun _ => rfl) (fun _ _ => rfl) rfl (by decide)

end Sys2Proof.Machine
end

section
/-! The jumps, branches, returns and BRK (45_control.md R190 to R202), and the rule of a no-operand mnemonic, whose decode is
over with its opcode. -/

namespace Sys2Proof.Machine

/-- Settles O41: each of the ten has the call, the operation and the index of its own name, and R90 lists the opcodes of its
rule. -/
theorem jumpAndBranchRules : Obligations.JumpAndBranchRules := by
  refine ⟨?_, ?_, ?_, ?_, ?_, ?_, ?_, ?_, ?_, ?_⟩ <;>
    exact followsArgRule_of_call (fun _ => rfl) (fun _ _ => rfl) rfl (by decide)

/-- From its `start`, a decode for which the source gives an Implied opcode executes the instruction whose call is the
mnemonic with no Arg, whatever the source would give next (41_dispatch.md R144, R145). -/
theorem step_of_noArg_instr {s : State} {i : Instr} {op : Byte} {m : Mnemonic} (hrom : s.RomIntact) (hready : s.ReadyFor [op])
    (he : lookup opcodeRom op = some (.defined m .implied)) (hcall : i.call = some ⟨m, none⟩) :
    step s = exec i (s.arrived [op]) := by
  have hinstr : i = instrOf m .implied := Instr.eq_instrOf_of_call hcall
  have hdec : decode [op] = .ok (i, []) := hinstr ▸ decode_defined (ops := []) he rfl
  exact step_of_decode hrom hready hdec

/-- A no-operand mnemonic follows its rule where its instruction makes its call, the operation of its name answers it, and
30_encoding.md R90 gives it the rule's opcode and no other. -/
theorem followsNoArgRule_of_call {i : Instr} {m : Mnemonic} {index : BitVec 6} {answer : InstrInterpreter Output → Output}
    {op : Byte} (hcall : i.call = some ⟨m, none⟩) (hanswer : ∀ ci, invoke ci i = some (answer ci)) (hindex : m.index = index)
    (hforms : m.forms = [(.implied, op)]) : FollowsNoArgRule i m index answer op := by
  have hlookup (op' : Byte) (mode : Mode) : lookup opcodeRom op' = some (.defined m mode) ↔ op' = op ∧ mode = .implied := by
    rw [opcodeTableAgreesWithMnemonicLists, hforms, List.mem_singleton, Prod.mk.injEq, and_comm]
  refine ⟨hlookup, fun s hrom hready => ?_⟩
  have hstep := step_of_noArg_instr hrom hready ((hlookup op .implied).mpr ⟨rfl, rfl⟩) hcall
  obtain ⟨t, hexec, -, hvalid, hnoErr, hpresented, hresult, hcalls, hsame⟩ := execCalls_of_call hcall hanswer (s.arrived [op])
  obtain ⟨-, -, -, -, -, hsrc, -, hcursor, -⟩ := hsame
  refine ⟨t, hstep.trans hexec, hexec, hvalid, hnoErr, ?_, ?_, hpresented, hresult, hcalls, hcursor, hsrc⟩
  · simpa [State.dispMnem, hpresented] using hindex
  · simp [State.dispHasArg, hpresented]

/-- Settles O42: each of RTS, RTI and BRK has the call, the operation and the index of its own name, and R90 gives it the one
opcode of its rule. -/
theorem returnAndBreakRules : Obligations.ReturnAndBreakRules :=
  ⟨followsNoArgRule_of_call rfl (fun _ => rfl) rfl rfl,
    followsNoArgRule_of_call rfl (fun _ => rfl) rfl rfl,
    followsNoArgRule_of_call rfl (fun _ => rfl) rfl rfl⟩

end Sys2Proof.Machine
end

section
/-! The register, stack and flag mnemonics and NOP (46_implied.md R210 to R231). All are no-operand ones, so each is an instance
of `followsNoArgRule_of_call`: the instruction makes the call of its own mnemonic with no Arg, the operation of the same name
answers that call, and the index and the one opcode are those of the rule. -/

namespace Sys2Proof.Machine

/-- Settles O43: each of INX, INY, DEX, DEY and the six transfers has the call, the operation and the index of its own name,
and R90 gives it the one opcode of its rule. -/
theorem registerRules : Obligations.RegisterRules := by
  refine ⟨?_, ?_, ?_, ?_, ?_, ?_, ?_, ?_, ?_, ?_⟩ <;>
    exact followsNoArgRule_of_call rfl (fun _ => rfl) rfl rfl

/-- Settles O44: each of the four stack mnemonics, the seven flag mnemonics and NOP has the call, the operation and the index
of its own name, and R90 gives it the one opcode of its rule. -/
theorem stackAndFlagRules : Obligations.StackAndFlagRules := by
  refine ⟨?_, ?_, ?_, ?_, ?_, ?_, ?_, ?_, ?_, ?_, ?_, ?_⟩ <;>
    exact followsNoArgRule_of_call rfl (fun _ => rfl) rfl rfl

end Sys2Proof.Machine
end

section
/-! Reset (70_reset_and_hazards.md R280, R281): from any phase it blanks the block, so no decode goes on after it in its step. -/

namespace Sys2Proof.Machine

/-- A reset pulse resets the block, whatever its phase. -/
theorem takePulse_reset {s : State} {p : List Pulse} (hc : s.control = .reset :: p) :
    s.takePulse = State.resetBlock { s with control := p } := by
  simp only [State.takePulse, hc]

/-- After a reset no latch holds a value (10_state.md R43). -/
theorem State.latchesEmpty_resetBlock (s : State) : s.resetBlock.latchesEmpty = true :=
  State.latchesEmpty_iff.mpr ⟨rfl, rfl, rfl, rfl⟩

/-- The step that takes a reset does nothing but reset the block: it requests no byte and makes no call. -/
theorem step_of_reset {s : State} {p : List Pulse} (hc : s.control = .reset :: p) :
    step s = .next (State.resetBlock { s.nextMoment with control := p }) := by
  have hpulse : s.nextMoment.takePulse = State.resetBlock { s.nextMoment with control := p } := takePulse_reset hc
  have hidle : s.nextMoment.takePulse.phase = .idle := by rw [hpulse, State.resetBlock_phase]
  rw [step_of_pulse_not_busy hc (State.busy_eq_false.mpr (.inl hidle)), hpulse]

/-- Settles O22: the step is the reset alone, which blanks the block and leaves the table and the boundary as they are. -/
theorem resetAbandonsDecode : Obligations.ResetAbandonsDecode := by
  intro s p hc
  obtain ⟨hdisp, herr, -⟩ :=
    State.no_output_of_not_done (s := State.resetBlock { s.nextMoment with control := p }) nofun
  exact ⟨_, step_of_reset hc, rfl, rfl, State.latchesEmpty_resetBlock _, rfl, rfl, hdisp, herr, rfl, rfl, rfl, rfl, rfl, rfl⟩

end Sys2Proof.Machine
end
